-- ==== Sys2Proof/Word.lean ====
section
/-! DEFINITION. The words of the engine: bytes, 40-bit records, pin levels, and pairs over the two channels. -/

namespace Sys2Proof

/-- `u8` (`00_scope.md` 5.1). Its `+` and `-` are `+8` and `-8` of R3: unsigned, modulo 256, no flag. -/
abbrev Byte := BitVec 8

/-- A fragment record as stored, the 40-bit word W of R70. -/
abbrev RecWord := BitVec 40

/-- The level of a pin, 0 or 1 (R22, R55). -/
abbrev Level := BitVec 1

/-- The two output channels (R1; "more than two output channels" is a non-goal). -/
inductive Channel where
  | ch0
  | ch1
  deriving DecidableEq, Repr

/-- One value for each channel, `X[0]` and `X[1]`. -/
structure Pair (α : Type) where
  c0 : α
  c1 : α
  deriving DecidableEq, Repr

/-- `X[c]`. -/
def Pair.get {α : Type} (p : Pair α) : Channel → α
  | .ch0 => p.c0
  | .ch1 => p.c1

end Sys2Proof
end

