-- ==== Sys2Proof/Syntax.lean ====
section
/-! DEFINITION. The engine's instructions: the three record kinds and the two directory entry kinds. -/

namespace Sys2Proof

/-- The decoded fields of a fragment record (R70 to R73). -/
structure Record where
  len : Byte
  init : Pair Byte
  inc : Pair Byte
  deriving DecidableEq, Repr

/-- One constructor per row of `spec/opcode_table.json`. The bytes the hardware ignores (R79) are kept,
so that no bit of a record is lost; no meaning reads them (log 14). -/
inductive Instr where
  /-- RAMP, R119: `len` in 1..254. -/
  | ramp (len init0 inc0 init1 inc1 : Byte)
  /-- HOLD, R120: `len` = 0; the `inc` bytes are ignored. -/
  | hold (init0 inc0 init1 inc1 : Byte)
  /-- END, R121: `len` = 255; all four bytes are ignored. -/
  | endMark (init0 inc0 init1 inc1 : Byte)
  /-- PAT, R75 and R144: the index of the pattern's first fragment. -/
  | pat (first : Nat)
  /-- ENDLIB, R75 and R144: the sentinel NULL_FRAG. -/
  | endlib
  deriving DecidableEq, Repr

/-- An element of one of the two tables as stored: a 40-bit record of FRAG or an entry of DIR (R50). -/
inductive TableWord where
  | record (w : RecWord)
  | entry (e : Nat)
  deriving DecidableEq, Repr

end Sys2Proof
end

