-- ==== Sys2Proof/WellFormed.lean ====
section
/-! DEFINITION. Which terms of `Instr` are instructions of the engine. -/

namespace Sys2Proof

/-- `len` of a RAMP is 1..254 (R71, R74); a PAT entry is an index below NULL_FRAG = 2^FIDX_W - 1 (R75).
FIDX_W is at least 1 (R2), without which there is no entry at all. -/
def Instr.wf (fidxW : Nat) : Instr → Bool
  | .ramp len _ _ _ _ => len != 0#8 && len != 255#8
  | .hold _ _ _ _ => true
  | .endMark _ _ _ _ => true
  | .pat first => decide (1 ≤ fidxW) && decide (first < 2 ^ fidxW - 1)
  | .endlib => decide (1 ≤ fidxW)

end Sys2Proof
end

