-- ==== Sys2Proof/Decode.lean ====
section
/-! DEFINITION. The decoder of both tables, total and rejecting by name, and after it the encoder. -/

namespace Sys2Proof

/-- Why a table element is no instruction. Every 40-bit word and every FIDX_W-bit number is one (R74, R75). -/
inductive DecodeReject where
  /-- A record is five bytes, no more and no fewer (R70). -/
  | notFiveBytes
  /-- The number does not fit FIDX_W bits, so it is no directory entry (R75). -/
  | entryTooWide
  deriving DecidableEq, Repr

/-- NULL_FRAG, all ones in FIDX_W bits (R75). -/
def nullFrag (fidxW : Nat) : Nat := 2 ^ fidxW - 1

/-- The `len` of an END record (R71). -/
def endLen : Byte := 255#8

/-- The five fields of the word W: `len` is W[39:32], then `init[0]`, `inc[0]`, `init[1]`, `inc[1]` (R70). -/
def recordOfWord (w : RecWord) : Record where
  len := w.extractLsb' 32 8
  init := ⟨w.extractLsb' 24 8, w.extractLsb' 8 8⟩
  inc := ⟨w.extractLsb' 16 8, w.extractLsb' 0 8⟩

/-- The kind of a record is decided by `len` alone, in R74's order. -/
def instrOfRecord (r : Record) : Instr :=
  if r.len = 0#8 then .hold r.init.c0 r.inc.c0 r.init.c1 r.inc.c1
  else if r.len = endLen then .endMark r.init.c0 r.inc.c0 r.init.c1 r.inc.c1
  else .ramp r.len r.init.c0 r.inc.c0 r.init.c1 r.inc.c1

/-- The decode of a record is total (R74). -/
def decodeRecord (w : RecWord) : Instr := instrOfRecord (recordOfWord w)

/-- R75: all ones is ENDLIB, every other FIDX_W-bit number is PAT. -/
def decodeEntry (fidxW e : Nat) : Except DecodeReject Instr :=
  if 2 ^ fidxW ≤ e then .error .entryTooWide
  else if e = nullFrag fidxW then .ok .endlib
  else .ok (.pat e)

/-- The instruction an element of either table is. -/
def decode (fidxW : Nat) : TableWord → Except DecodeReject Instr
  | .record w => .ok (decodeRecord w)
  | .entry e => decodeEntry fidxW e

/-- A record as five stored bytes, byte 0 first: `len`, `init[0]`, `inc[0]`, `init[1]`, `inc[1]` (R56, R70). -/
def wordOfBytes : List Byte → Except DecodeReject RecWord
  | [b0, b1, b2, b3, b4] => .ok (b0 ++ b1 ++ b2 ++ b3 ++ b4)
  | _ => .error .notFiveBytes

/-- The instruction five stored bytes are. -/
def decodeBytes (bs : List Byte) : Except DecodeReject Instr :=
  (wordOfBytes bs).map decodeRecord

/-- The word of five fields, byte 0 most significant (R70). -/
def wordOfRecord (r : Record) : RecWord :=
  r.len ++ r.init.c0 ++ r.inc.c0 ++ r.init.c1 ++ r.inc.c1

/-- The table element of an instruction (R70, R74, R75). -/
def encode (fidxW : Nat) : Instr → TableWord
  | .ramp len i0 s0 i1 s1 => .record (wordOfRecord ⟨len, ⟨i0, i1⟩, ⟨s0, s1⟩⟩)
  | .hold i0 s0 i1 s1 => .record (wordOfRecord ⟨0#8, ⟨i0, i1⟩, ⟨s0, s1⟩⟩)
  | .endMark i0 s0 i1 s1 => .record (wordOfRecord ⟨endLen, ⟨i0, i1⟩, ⟨s0, s1⟩⟩)
  | .pat first => .entry first
  | .endlib => .entry (nullFrag fidxW)

/-- The instruction of a word of `spec/opcode_table.json`: its 40-bit rows number a record as the word W
(`len` in the top byte, as the rows' mask and example show; log 13), its 8-bit rows an entry at FIDX_W = 8. -/
def decodeTableWord (nbits w : Nat) : Option Instr :=
  if nbits = 40 ∧ w < 2 ^ 40 then some (decodeRecord (BitVec.ofNat 40 w))
  else if nbits = 8 then (decodeEntry 8 w).toOption
  else none

end Sys2Proof
end

