-- ==== Sys2Proof/Config.lean ====
section
/-! DEFINITION. The parameters of R2, and the one value the spec leaves free in a run. -/

namespace Sys2Proof

/-- The parameters of R2's table. They are constants of a run; no rule writes them (R35).
`limit` and `cooldown` are bytes, which is R2's upper bound 255 for L and COOLDOWN; the other
constraints are `Machine.configWf`'s. -/
structure Config where
  /-- L, DLF's `SUBFRAME_LIMIT`. -/
  limit : Byte
  /-- COOLDOWN, in frames. -/
  cooldown : Byte
  /-- PERSIST, the "persistent variant". -/
  persist : Bool
  /-- NV_ADDR. -/
  nvAddr : Nat
  /-- FRAGS, the fragment store, indexed from 0 (R51). -/
  frags : List RecWord
  /-- DIR, the pattern directory, indexed from 0 (R52). -/
  dir : List Nat
  /-- FIDX_W, the width of a fragment index. -/
  fidxW : Nat
  /-- SEQ_LAT, the ticks a sequencer run takes after its boundary. -/
  seqLat : Nat
  /-- TMR_COUNTS_PER_TICK. -/
  tmrCountsPerTick : Nat
  /-- IRQ_LATENCY_COUNTS. -/
  irqLatencyCounts : Nat
  deriving DecidableEq, Repr

/-- FREE VALUE (log 5): the level of BTN at the n-th sample, counted from 0, where the state lists no
sample. "every sample sequence `btn[k]` is admitted" (R196), so nothing constrains it. -/
opaque Config.freeButton : Nat → Level

/-- The parameters `State.reset` carries: R2's default where it gives one (COOLDOWN 60, FIDX_W 8), and
else DESIGN CHOICES (log 2). No library: its contents are in no source (log 3). -/
def Config.atReset : Config where
  limit := 64#8
  cooldown := 60#8
  persist := true
  nvAddr := 0
  frags := []
  dir := []
  fidxW := 8
  seqLat := 0
  tmrCountsPerTick := 100
  irqLatencyCounts := 4

end Sys2Proof
end

