-- ==== Sys2Proof/Machine/State.lean ====
section
/-! DEFINITION. The engine's state as plain data, the reasons a step stops, and the state after reset. -/

namespace Sys2Proof.Machine

/-- The non-volatile store: bytes by address, addresses strictly rising, no entry equal to what an
unlisted address reads as (`Memory.wf`). -/
abbrev Memory := List Host.Cell

/-- The cells of R20, one field each; the parameters of R2, which no step changes (log 1); and the
model's own fields `btn`, `nsamp`, `lat`, `timer` (logs 5, 6, 10). -/
structure State where
  /-- The parameters and the two read-only tables. -/
  cfg : Config
  /-- CNT, the subframe counter (R21). -/
  cnt : Byte
  /-- OUT, the levels of the two output pins (R22). -/
  out : Pair Level
  /-- TGT, the published intensities (R23). -/
  tgt : Pair Byte
  /-- INT, the working intensities (R24). -/
  int : Pair Byte
  /-- FC, the frame counter (R25). -/
  fc : Byte
  /-- PIDX, the current pattern index (R26). -/
  pidx : Byte
  /-- FPTR, the current fragment's index, a number of FIDX_W bits (R27). -/
  fptr : Nat
  /-- CD, the input cooldown (R28). -/
  cd : Byte
  /-- FP, the frame-pending flag (R29). -/
  fp : Bool
  /-- NV, the non-volatile store (R31, R53). -/
  nv : Memory
  /-- The coming samples of BTN, first the next sequencer run's (R55, R141; log 5). -/
  btn : List Level
  /-- How many samples have been taken; the free value is applied to it (log 5). -/
  nsamp : Nat
  /-- Ticks still to come before the run in progress is performed (R163; log 6). -/
  lat : Nat
  /-- The reload constant last handed to the external timer (R99; log 10). -/
  timer : Byte
  deriving DecidableEq, Repr

/-- "The engine raises no exception, has no cause code, no fault register and no error output" (R180):
there is no fault. -/
inductive Fault where
  deriving DecidableEq, Repr

/-- Why the model gives a step no meaning. -/
inductive Refusal where
  /-- Raised by `exec` for an instruction without a meaning (there is none in this model). Safe. -/
  | notModelled (mnemonic : String)
  /-- Raised by `step` and `powerOn` where the parameters or the library are not well-formed: "a model
  refuses it at configuration time" (R2, R80, R182). Safe. -/
  | illFormedConfiguration
  /-- Raised by every read `Frag(i)` with i not the index of a record (R65). Safe. -/
  | fragmentOutsideStore (i : Nat)
  /-- Raised by every read `Dir(p)` with p beyond the sentinel's index NPAT, or without a sentinel (R65). Safe. -/
  | entryOutsideDirectory (p : Nat)
  deriving DecidableEq, Repr

/-- The machine right after reset (R37) with the parameters `Config.atReset`. R37 gives CNT, OUT, TGT, CD
and FP; PIDX, FPTR, FC and INT come from the boot fragment, and as no library is loaded they hold 0
(DESIGN CHOICE, log 3). The timer has been armed with TMR_RELOAD, (256 - 100 + 4) mod 256 (R99, R211). -/
def State.reset : State where
  cfg := Config.atReset
  cnt := 64#8
  out := ⟨0#1, 0#1⟩
  tgt := ⟨0#8, 0#8⟩
  int := ⟨0#8, 0#8⟩
  fc := 0#8
  pidx := 0#8
  fptr := 0
  cd := 0#8
  fp := true
  nv := []
  btn := []
  nsamp := 0
  lat := 0
  timer := 160#8

end Sys2Proof.Machine
end

