-- ==== Sys2Proof/Machine/Operands.lean ====
section
/-! DEFINITION. What an operation reads: the records of FRAG, the entries of DIR, the button. -/

namespace Sys2Proof.Machine

/-- `Frag(i)`, decoded into its fields (R51, R70); none where i is no record's index (R65). -/
def readFrag (c : Config) (i : Nat) : Option Record :=
  c.frags[i]?.map recordOfWord

/-- NPAT, the index of the first directory entry equal to NULL_FRAG (R2, R77). -/
def npat (c : Config) : Option Nat :=
  c.dir.findIdx? (fun e => e == nullFrag c.fidxW)

/-- `Dir(p)` for p up to NPAT, whose entry is the sentinel (R52); beyond it there is no result (R65). -/
def readDir (c : Config) (p : Nat) : Option Nat :=
  match npat c with
  | some n => if p ≤ n then c.dir[p]? else none
  | none => none

/-- The index of the record after FPTR, `(FPTR + 1) mod 2^FIDX_W` (R32, R111). -/
def nextFrag (s : State) : Nat := (s.fptr + 1) % 2 ^ s.cfg.fidxW

/-- The level BTN has `j` samples from now: the listed one, and past the list the free value (R141, log 5). -/
def buttonAt (s : State) (j : Nat) : Level :=
  (s.btn[j]?).getD (Config.freeButton (s.nsamp + j))

/-- The button "reads 1 when the button is released and 0 when it is pressed" (R55). -/
def pressed (l : Level) : Bool := l == 0#1

end Sys2Proof.Machine
end

