-- ==== Sys2Proof/Machine/Ops.lean ====
section
/-! DEFINITION. The shared operations: outcomes in sequence, the non-volatile store, the timer constant,
and the register updates that the operations of the engine are made of. -/

namespace Sys2Proof.Machine

/-- Go on with `f` where `o` gives a value, and stop as `o` stops. -/
def andThen {α β : Type} (o : Host.Outcome α Fault Refusal) (f : α → Host.Outcome β Fault Refusal) :
    Host.Outcome β Fault Refusal :=
  match o with
  | .next a => f a
  | .fault r => .fault r
  | .refused r => .refused r

/-! The non-volatile store. -/

/-- What a byte of the store reads as where nothing was written: DESIGN CHOICE 0xFF (log 4). -/
def unwritten : Byte := 255#8

/-- The canonical form: addresses strictly rising, no entry equal to `unwritten`. -/
def Memory.wf : Memory → Bool
  | [] => true
  | (a, v) :: m => v != unwritten && m.all (fun c => decide (a < c.1)) && Memory.wf m

/-- `MemRead(NV, a, 1)` (R53). -/
def Memory.read : Memory → Nat → Byte
  | [], _ => unwritten
  | (b, x) :: m, a => if a = b then x else Memory.read m a

/-- `MemWrite(NV, a, 1, v)` (R53), keeping the canonical form. -/
def Memory.write : Memory → Nat → Byte → Memory
  | [], a, v => if v = unwritten then [] else [(a, v)]
  | (b, x) :: m, a, v =>
    if a < b then (if v = unwritten then (b, x) :: m else (a, v) :: (b, x) :: m)
    else if a = b then (if v = unwritten then m else (a, v) :: m)
    else (b, x) :: Memory.write m a v

/-! The timer. -/

/-- `TMR_RELOAD = (256 - TMR_COUNTS_PER_TICK + IRQ_LATENCY_COUNTS) mod 256` (R99). -/
def tmrReload (c : Config) : Byte := BitVec.ofNat 8 (256 - c.tmrCountsPerTick + c.irqLatencyCounts)

/-! Register updates. -/

/-- `a +8 b` in each channel (R3). -/
def addPair (a b : Pair Byte) : Pair Byte := ⟨a.c0 + b.c0, a.c1 + b.c1⟩

/-- Step 2 of a run: both increments are added to INT (R113). -/
def State.rampAdded (s : State) (inc : Pair Byte) : State := { s with int := addPair s.int inc }

/-- Step 4 of a run: `FC <- FC -8 1` (R115). -/
def State.fcDecremented (s : State) : State := { s with fc := s.fc - 1#8 }

/-- The cooldown branch: `CD <- CD -8 1` (R142). -/
def State.cdDecremented (s : State) : State := { s with cd := s.cd - 1#8 }

/-- One sample of the button per run goes by (R141; log 5). -/
def State.sampleTaken (s : State) : State := { s with btn := s.btn.tail, nsamp := s.nsamp + 1 }

/-- The pressed branch's `CD <- COOLDOWN ; PIDX <- p` (R143). -/
def State.patternChosen (s : State) (p : Byte) : State := { s with cd := s.cfg.cooldown, pidx := p }

/-- What LOAD(i) writes, `r` being Frag(i) (R126). -/
def State.loaded (s : State) (i : Nat) (r : Record) : State :=
  { s with fptr := i, fc := r.len, int := r.init }

/-- `if PERSIST: MemWrite(NV, NV_ADDR, 1, p)` (R145). -/
def State.persisted (s : State) (p : Byte) : State :=
  { s with nv := if s.cfg.persist then Memory.write s.nv s.cfg.nvAddr p else s.nv }

/-- LOAD(i), "the one way a fragment becomes current" (R126). -/
def load (i : Nat) (s : State) : Host.Outcome State Fault Refusal :=
  match readFrag s.cfg i with
  | some r => .next (s.loaded i r)
  | none => .refused (.fragmentOutsideStore i)

/-- The pattern change to pattern `p`, whose first fragment is `i`: the pressed branch of R140 from
`CD <- COOLDOWN` to the write of the store (R143, R145). -/
def changePattern (p : Byte) (i : Nat) (s : State) : Host.Outcome State Fault Refusal :=
  andThen (load i (s.patternChosen p)) (fun t => .next (t.persisted p))

end Sys2Proof.Machine
end

