-- ==== Sys2Proof/Machine/Directory.lean ====
section
/-! DEFINITION. The directory entries PAT and ENDLIB, as the selector meets them at `Dir(PIDX + 1)` (R144). -/

namespace Sys2Proof.Machine

/-- PAT: `p = PIDX + 1`, and the pattern change to the pattern that starts at `first`, which is Dir(p)
(R143, R144, R145; logs 12, 16). -/
def execPat (first : Nat) (s : State) : Host.Outcome State Fault Refusal :=
  changePattern (s.pidx + 1#8) first s

/-- ENDLIB: "wraps to 0 past the last real pattern": `p = 0`, and the pattern change to the pattern that
starts at Dir(0) (R143, R144, R145). -/
def execEndlib (s : State) : Host.Outcome State Fault Refusal :=
  match readDir s.cfg 0 with
  | some i => changePattern 0#8 i s
  | none => .refused (.entryOutsideDirectory 0)

end Sys2Proof.Machine
end

