-- ==== Sys2Proof/Machine/Selector.lean ====
section
/-! DEFINITION. The Input Debouncer and Pattern Selector (operation DEBOUNCE, R140). -/

namespace Sys2Proof.Machine

/-- The pressed branch: the entry at PIDX + 1 says which pattern is next (R143, R144). -/
def selectNext (s : State) : Host.Outcome State Fault Refusal :=
  match readDir s.cfg (s.pidx + 1#8).toNat with
  | some e => if e = nullFrag s.cfg.fidxW then execEndlib s else execPat e s
  | none => .refused (.entryOutsideDirectory (s.pidx + 1#8).toNat)

/-- DEBOUNCE, answering `changed` and the state: the cooldown branch, whatever the level (R142); the pressed
branch (R143); the idle branch (R148). One sample goes by in each (R141; log 5). -/
def debounce (s : State) : Host.Outcome (Bool × State) Fault Refusal :=
  if s.cd ≠ 0#8 then .next (false, s.sampleTaken.cdDecremented)
  else if pressed (buttonAt s 0) then andThen (selectNext s.sampleTaken) (fun t => .next (true, t))
  else .next (false, s.sampleTaken)

end Sys2Proof.Machine
end

