-- ==== Sys2Proof/Machine/Fragment.lean ====
section
/-! DEFINITION. The Frame Sequencer's steps 2 to 7 (R111) and the record kinds RAMP, HOLD and END. -/

namespace Sys2Proof.Machine

/-- END: found by step 6 after the current fragment; the fragment loaded is the first of the current
pattern, `Dir(PIDX)` (R117, R121; log 16). Its four bytes are ignored. -/
def execEndMark (_init0 _inc0 _init1 _inc1 : Byte) (s : State) : Host.Outcome State Fault Refusal :=
  match readDir s.cfg s.pidx.toNat with
  | some i => load i s
  | none => .refused (.entryOutsideDirectory s.pidx.toNat)

/-- Steps 6 and 7: the record after FPTR, or the pattern's first where that record is END (R117, R118). The
sentinel test is made once (R117). -/
def advance (s : State) : Host.Outcome State Fault Refusal :=
  match readFrag s.cfg (nextFrag s) with
  | some r =>
    if r.len = endLen then execEndMark r.init.c0 r.inc.c0 r.init.c1 r.inc.c1 s
    else load (nextFrag s) s
  | none => .refused (.fragmentOutsideStore (nextFrag s))

/-- Step 2: the increments are added, but not in a forever fragment (R113). -/
def rampStep (f : Record) (s : State) : State :=
  if f.len = 0#8 then s else s.rampAdded f.inc

/-- Steps 4 to 7, performed when the debouncer answered `changed` = false (R115 to R118). -/
def countFrame (f : Record) (s : State) : Host.Outcome State Fault Refusal :=
  if s.fc - 1#8 = 0#8 ∧ f.len ≠ 0#8 then advance s.fcDecremented else .next s.fcDecremented

/-- Steps 2 to 7 of a run whose current record is `f` (R111): a pattern change short-circuits the steps
after the debouncer (R114, R147). -/
def seqRun (f : Record) (s : State) : Host.Outcome State Fault Refusal :=
  andThen (debounce (rampStep f s)) (fun r => if r.1 then .next r.2 else countFrame f r.2)

/-- RAMP as the current record of a run (R119). -/
def execRamp (len init0 inc0 init1 inc1 : Byte) (s : State) : Host.Outcome State Fault Refusal :=
  seqRun ⟨len, ⟨init0, init1⟩, ⟨inc0, inc1⟩⟩ s

/-- HOLD as the current record of a run (R120): its increments are ignored. -/
def execHold (init0 inc0 init1 inc1 : Byte) (s : State) : Host.Outcome State Fault Refusal :=
  seqRun ⟨0#8, ⟨init0, init1⟩, ⟨inc0, inc1⟩⟩ s

end Sys2Proof.Machine
end

