-- ==== Sys2Proof/Machine/Dispatch.lean ====
section
/-! DEFINITION. One arm per instruction. -/

namespace Sys2Proof.Machine

def exec (i : Instr) (s : State) : Host.Outcome State Fault Refusal :=
  match i with
  | .ramp len init0 inc0 init1 inc1 => Sys2Proof.Machine.execRamp len init0 inc0 init1 inc1 s
  | .hold init0 inc0 init1 inc1 => Sys2Proof.Machine.execHold init0 inc0 init1 inc1 s
  | .endMark init0 inc0 init1 inc1 => Sys2Proof.Machine.execEndMark init0 inc0 init1 inc1 s
  | .pat first => Sys2Proof.Machine.execPat first s
  | .endlib => Sys2Proof.Machine.execEndlib s

end Sys2Proof.Machine
end

