-- ==== Sys2Proof/Machine/Flags.lean ====
section
/-! DEFINITION. The engine's comparisons (R4) and its one flag FP (R29). There is no arithmetic flag (R3). -/

namespace Sys2Proof.Machine

/-- `a >u b`: unsigned, strict; equal values give 0 (R4). -/
def gtU (a b : Byte) : Level := if b.toNat < a.toNat then 1#1 else 0#1

/-- The last action of a sequencer run, `FP <- 1` (R111, R163). -/
def State.setPending (s : State) : State := { s with fp := true }

/-- FB occurs in the TICK whose decrement brings CNT to 0 (R30, R93). -/
def atBoundary (s : State) : Bool := s.cnt - 1#8 == 0#8

/-- A sequencer run is outstanding exactly when FP = 0 (R36); it is performed when its SEQ_LAT ticks have
passed (R163, log 6). -/
def runDue (s : State) : Bool := !s.fp && s.lat == 0

end Sys2Proof.Machine
end

