-- ==== Sys2Proof/Machine/Library.lean ====
section
/-! DEFINITION. Which parameters and which libraries the engine runs on (R2, R78); every other is refused. -/

namespace Sys2Proof.Machine

/-- W3 from a record on: RAMP records, closed by a record that exists and is HOLD or END (R78). -/
def closes : List RecWord → Bool
  | [] => false
  | w :: ws =>
    if (recordOfWord w).len = 0#8 then true
    else if (recordOfWord w).len = endLen then true
    else closes ws

/-- Record s is not END (R78, W4), and it exists (W2). -/
def startsReal (c : Config) (s : Nat) : Bool :=
  match readFrag c s with
  | some r => r.len != endLen
  | none => false

/-- W2, W3 and W4 of the pattern whose first fragment is `s` (R78). -/
def patternWf (c : Config) (s : Nat) : Bool := startsReal c s && closes (c.frags.drop s)

/-- A well-formed library (R78): W1, then W2 to W4 of every entry before the sentinel; and the store fits
its index, at most 2^FIDX_W - 1 records (R75; log 9). -/
def libraryWf (c : Config) : Bool :=
  match npat c with
  | some n =>
    decide (1 ≤ n) && decide (n ≤ 255) && (c.dir.take n).all (patternWf c) &&
      decide (c.frags.length ≤ nullFrag c.fidxW)
  | none => false

/-- R2's constraints on the parameters that are not part of the library. -/
def paramsWf (c : Config) : Bool :=
  c.limit != 0#8 && decide (1 ≤ c.fidxW) && decide (c.seqLat + 1 ≤ c.limit.toNat) &&
    decide (1 ≤ c.tmrCountsPerTick) && decide (c.tmrCountsPerTick ≤ 256)

/-- The configurations the spec gives a meaning to (R2, R80). -/
def configWf (c : Config) : Bool := paramsWf c && libraryWf c

end Sys2Proof.Machine
end

