-- ==== Sys2Proof/Machine/Frame.lean ====
section
/-! DEFINITION. A whole sequencer run (operation SEQ_STEP, R111), and RESET (R211). -/

namespace Sys2Proof.Machine

/-- The instruction a run performs for its current record. The run tests only whether `len` is 0, so an END
record that is current is run "like a RAMP with n = 255" (R128 (i); log 11); a well-formed library never
makes END current (R121). -/
def asCurrent : Instr → Instr
  | .ramp len i0 s0 i1 s1 => .ramp len i0 s0 i1 s1
  | .hold i0 s0 i1 s1 => .hold i0 s0 i1 s1
  | .endMark i0 s0 i1 s1 => .ramp endLen i0 s0 i1 s1
  | .pat first => .pat first
  | .endlib => .endlib

/-- SEQ_STEP: fetch the current record through FPTR, decode it, run it, and set FP (R111, R163). -/
def seqStep (s : State) : Host.Outcome State Fault Refusal :=
  match s.cfg.frags[s.fptr]? with
  | some w => andThen (exec (asCurrent (decodeRecord w)) s) (fun t => .next t.setPending)
  | none => .refused (.fragmentOutsideStore s.fptr)

/-- The boot index: the persisted byte, or 0 without PERSIST and where the byte is not below NPAT (R212). -/
def bootIndex (s : State) : Byte :=
  let b := if s.cfg.persist then Memory.read s.nv s.cfg.nvAddr else 0#8
  match npat s.cfg with
  | some n => if b.toNat < n then b else 0#8
  | none => 0#8

/-- What RESET writes beside the boot fragment: `CD <- 0 ; CNT <- L ; FP <- 1`, TGT and OUT, the timer
armed, no run in progress (R211). The store, the parameters and the coming samples stay. -/
def State.rebooted (s : State) (b : Byte) : State :=
  { s with
    pidx := b, cd := 0#8, cnt := s.cfg.limit, fp := true, tgt := ⟨0#8, 0#8⟩, out := ⟨0#1, 0#1⟩,
    lat := 0, timer := tmrReload s.cfg }

/-- RESET, the environment's power-on move (R210, R211): an ill-formed configuration is refused (R80); the
cells are re-created from the boot pattern's first fragment (R37). -/
def powerOn (s : State) : Host.Outcome State Fault Refusal :=
  if configWf s.cfg then
    match readDir s.cfg (bootIndex s).toNat with
    | some i => load i (s.rebooted (bootIndex s))
    | none => .refused (.entryOutsideDirectory (bootIndex s).toNat)
  else .refused .illFormedConfiguration

/-! Where a table word stands so that the next step runs it (logs 3, 13, 17). -/

/-- A state whose next step is a sequencer run over the library `frags`, `dir`, with record 0, `r`, just
loaded and the coming sample `b`. -/
def runNext (s : State) (frags : List RecWord) (dir : List Nat) (r : Record) (b : Level) : State :=
  { s with
    cfg := { s.cfg with frags := frags, dir := dir, fidxW := 8 },
    pidx := 0#8, fptr := 0, fc := r.len, int := r.init, cd := 0#8, fp := false, lat := 0,
    btn := b :: s.btn }

/-- END as a stored word, `0xFF00000000` (R82). -/
def endWord : RecWord := wordOfRecord ⟨endLen, ⟨0#8, 0#8⟩, ⟨0#8, 0#8⟩⟩

/-- HOLD (0), (0) as a stored word, all zeros (R81). -/
def darkWord : RecWord := 0#40

/-- A RAMP of one frame, both channels dark (R81): the fragment that ends in its first run. -/
def oneFrame : Record := ⟨1#8, ⟨0#8, 0#8⟩, ⟨0#8, 0#8⟩⟩

/-- A record word: RAMP and HOLD stand at index 0 and are current; END stands after a RAMP that ends in
this run. The button is released. -/
def withRecordNext (s : State) (w : RecWord) : State :=
  if (recordOfWord w).len = endLen then
    runNext s [wordOfRecord oneFrame, w] [0, nullFrag 8] oneFrame 1#1
  else runNext s [w, endWord] [0, nullFrag 8] (recordOfWord w) 1#1

/-- A directory entry: it stands at index 1, after pattern 0; the store has the record it names, all
records are HOLD (0), (0), and the button is pressed, so that this run reads the entry. -/
def withEntryNext (s : State) (e : Nat) : State :=
  let dark := recordOfWord darkWord
  if e = nullFrag 8 then runNext s [darkWord] [0, e] dark 0#1
  else runNext s (List.replicate (e + 1) darkWord) [0, e, nullFrag 8] dark 0#1

end Sys2Proof.Machine
end

