-- ==== Sys2Proof/Machine/Modulator.lean ====
section
/-! DEFINITION. The Subframe Modulator (operation TICK, R94) and the handoff's action PUBLISH (R162). -/

namespace Sys2Proof.Machine

/-- `OUT[c] <- (TGT[c] >u CNT)` for both channels at once, from the same CNT (R91, R92). -/
def outBits (s : State) : Pair Level := ⟨gtU s.tgt.c0 s.cnt, gtU s.tgt.c1 s.cnt⟩

/-- PUBLISH: both targets and FP in one indivisible step; the run it starts has SEQ_LAT ticks (R162, R163). -/
def publish (s : State) : State := { s with tgt := s.int, fp := false, lat := s.cfg.seqLat }

/-- FB: with FP = 1 the frame is published; with FP = 0 nothing happens (R162, R165). -/
def frameBoundary (s : State) : State := if s.fp then publish s else s

/-- `TimerReload(TMR_RELOAD)`, an output to the external timer only (R99; log 10). -/
def State.timerReloaded (s : State) : State := { s with timer := tmrReload s.cfg }

/-- The port write of a TICK (R92). -/
def State.portWritten (s : State) (b : Pair Level) : State := { s with out := b }

/-- The write of CNT (R93). -/
def State.counted (s : State) (c : Byte) : State := { s with cnt := c }

/-- TICK in R94's order: reload the timer, compare and write the port, decrement; at 0 reload CNT and
raise FB. Total on every CNT (R101). -/
def tick (s : State) : State :=
  let w := (s.timerReloaded).portWritten (outBits s)
  if atBoundary s then frameBoundary (w.counted s.cfg.limit) else w.counted (s.cnt - 1#8)

/-- One firing of the timer: it brings the run in progress one tick nearer its SEQ_LAT (log 6), and TICK is
performed (R90). -/
def tickStep (s : State) : State := tick { s with lat := s.lat - 1 }

end Sys2Proof.Machine
end

