-- ==== Sys2Proof/Machine/Step.lean ====
section
/-! DEFINITION. One step: an ill-formed configuration is refused; a due sequencer run is performed whole;
otherwise a timer tick arrives. -/

namespace Sys2Proof.Machine

/-- One operation (R60): SEQ_STEP where a run is due, else TICK. "A model must refuse an ill-formed library
at configuration time, before the first step; it must not run it" (R80). -/
def step (s : State) : Host.Outcome State Fault Refusal :=
  if configWf s.cfg then
    if runDue s then seqStep s else .next (tickStep s)
  else .refused .illFormedConfiguration

/-- `s` with the table word `w` of `nbits` bits where the next step fetches and runs it (log 17). -/
def State.withFetchWord (s : State) (nbits w : Nat) : State :=
  if nbits = 40 then withRecordNext s (BitVec.ofNat 40 w)
  else if nbits = 8 then withEntryNext s (w % 256)
  else s

end Sys2Proof.Machine
end

