-- ==== Sys2Proof/Safety.lean ====
section
/-! DEFINITION. What a sound state of the engine is (R33), and the words the statements use: several ticks
or runs in a row, the count of high ticks, runs without a pattern change. -/

namespace Sys2Proof.Machine

/-- A record that is RAMP (R74). -/
def isRamp (r : Record) : Prop := r.len ≠ 0#8 ∧ r.len ≠ endLen

/-- Index `i` lies inside the pattern that starts at `d`: every record from `d` up to it is RAMP, and the
record at it exists and is not END (R33 (iii), R78). -/
def inBody (c : Config) (d i : Nat) : Prop :=
  d ≤ i ∧ (∀ j, d ≤ j → j < i → ∃ r, readFrag c j = some r ∧ isRamp r) ∧
    ∃ r, readFrag c i = some r ∧ r.len ≠ endLen

/-- R33 (iv): "if `Frag(FPTR).len` is in 1..254 then 1 <= FC <= `Frag(FPTR).len`". -/
def frameCountOk (s : State) : Prop :=
  ∀ r, readFrag s.cfg s.fptr = some r → isRamp r → 1 ≤ s.fc.toNat ∧ s.fc.toNat ≤ r.len.toNat

/-- R33 (ii) and (iii): PIDX names a pattern, and FPTR lies inside it. -/
def positionOk (s : State) : Prop :=
  ∃ n d, npat s.cfg = some n ∧ s.pidx.toNat < n ∧ readDir s.cfg s.pidx.toNat = some d ∧
    inBody s.cfg d s.fptr

/-- The invariant of the engine: R33 (i) to (v), the canonical form of the store, and what the model's own
fields hold (logs 6, 10). The position is a matter of the library, so it is asked for only where the
configuration is one the engine runs on. -/
structure Inv (s : State) : Prop where
  /-- R33 (i). -/
  cntPos : 1 ≤ s.cnt.toNat
  /-- R33 (i). -/
  cntLimit : s.cnt.toNat ≤ s.cfg.limit.toNat
  /-- R33 (v). -/
  cdLimit : s.cd.toNat ≤ s.cfg.cooldown.toNat
  /-- The store is in canonical form. -/
  nvCanonical : Memory.wf s.nv = true
  /-- With FP = 1 no run is in progress (R29, R161). -/
  idle : s.fp = true → s.lat = 0
  /-- A run in progress ends before the next boundary (R163). -/
  inTime : s.fp = false → s.lat < s.cnt.toNat
  /-- The timer holds the reload constant, "the same at every TICK" (R99). -/
  timerConst : s.timer = tmrReload s.cfg
  /-- R33 (ii), (iii). -/
  position : configWf s.cfg = true → positionOk s
  /-- R33 (iv). -/
  frameCount : configWf s.cfg = true → frameCountOk s

/-- `n` TICKs in a row. -/
def ticks : Nat → State → State
  | 0, s => s
  | n + 1, s => ticks n (tick s)

/-- How many of the next `n` TICKs write a 1 to channel `c`'s pin (R97). -/
def highCount (c : Channel) : Nat → State → Nat
  | 0, _ => 0
  | n + 1, s => ((tick s).out.get c).toNat + highCount c n (tick s)

/-- `k` sequencer runs in a row, stopping where one stops. -/
def runs : Nat → State → Host.Outcome State Fault Refusal
  | 0, s => .next s
  | k + 1, s => andThen (seqStep s) (runs k)

/-- `k` steps in a row, stopping where one stops. -/
def steps : Nat → State → Host.Outcome State Fault Refusal
  | 0, s => .next s
  | k + 1, s => andThen (step s) (steps k)

/-- `k` pattern changes in a row (R149). -/
def changes : Nat → State → Host.Outcome State Fault Refusal
  | 0, s => .next s
  | k + 1, s => andThen (selectNext s) (changes k)

/-- The next run makes a pattern change: CD = 0 and the sample is pressed (R140). -/
def changeDue (s : State) : Bool := s.cd == 0#8 && pressed (buttonAt s 0)

/-- None of the next `k` runs makes a pattern change: each falls into the cooldown or finds the button
released (R142, R148). -/
def quiet (k : Nat) (s : State) : Prop := ∀ j, j < k → j < s.cd.toNat ∨ buttonAt s j = 1#1

/-- What a debouncer without a pattern change leaves: CD one less, or still 0, and one sample gone by
(R142, R148; log 5). -/
def quietSample (s : State) : State :=
  { s with cd := if s.cd = 0#8 then 0#8 else s.cd - 1#8, btn := s.btn.tail, nsamp := s.nsamp + 1 }

/-- A fragment just loaded and current: FPTR names a RAMP record `r`, FC and INT are its `len` and `init`
(R126). -/
def justLoaded (s : State) (r : Record) : Prop :=
  readFrag s.cfg s.fptr = some r ∧ isRamp r ∧ s.fc = r.len ∧ s.int = r.init

/-- The total of the lengths of `m` records from index `d` on, in frames (R125). -/
def framesOf (c : Config) (d : Nat) : Nat → Nat
  | 0 => 0
  | m + 1 => ((readFrag c d).elim 0 fun r => r.len.toNat) + framesOf c (d + 1) m

end Sys2Proof.Machine
end

