-- ==== Sys2Proof/Certificates/Slice0/Obligations.lean ====
section
/-! DEFINITION. The statements for the provers. Each docstring names the rule of `spec/` it comes from. -/

section

open Sys2Proof Sys2Proof.Machine

/-! Encoding. -/

/-- The words of V-ENC-1, V-ENC-4 and the opcode table's examples, as words and as stored bytes, are the
instructions `spec/` says they are (R70, R74, R75). -/
def Obligations.SampleWordsDecode : Prop :=
  decode 8 (.record 0x10000880F8#40) = .ok (.ramp 16#8 0#8 8#8 128#8 248#8) ∧
  decode 8 (.record 0xFE000100FF#40) = .ok (.ramp 254#8 0#8 1#8 0#8 255#8) ∧
  decode 8 (.record 0x0040000000#40) = .ok (.hold 64#8 0#8 0#8 0#8) ∧
  decode 8 (.record 0x001E0528FB#40) = .ok (.hold 30#8 5#8 40#8 251#8) ∧
  decode 8 (.record 0xFF00000000#40) = .ok (.endMark 0#8 0#8 0#8 0#8) ∧
  decode 8 (.record 0xFF11223344#40) = .ok (.endMark 0x11#8 0x22#8 0x33#8 0x44#8) ∧
  decode 8 (.entry 0x02) = .ok (.pat 2) ∧
  decode 8 (.entry 0xFF) = .ok .endlib ∧
  decodeBytes [0x04#8, 0x00#8, 0x10#8, 0x40#8, 0xF0#8] = .ok (.ramp 4#8 0#8 16#8 64#8 240#8) ∧
  decodeBytes [0x02#8, 0x0A#8, 0x01#8, 0x14#8, 0x02#8] = .ok (.ramp 2#8 10#8 1#8 20#8 2#8)

/-- R74: the first byte alone decides the kind, and every 40-bit word is five bytes, hence one of the three. -/
def Obligations.RecordKindByLenAlone : Prop :=
  (∀ len i0 s0 i1 s1 : Byte,
    (len = 0#8 → decodeRecord (len ++ i0 ++ s0 ++ i1 ++ s1) = .hold i0 s0 i1 s1) ∧
    (len = 255#8 → decodeRecord (len ++ i0 ++ s0 ++ i1 ++ s1) = .endMark i0 s0 i1 s1) ∧
    (len ≠ 0#8 → len ≠ 255#8 →
      decodeRecord (len ++ i0 ++ s0 ++ i1 ++ s1) = .ramp len i0 s0 i1 s1)) ∧
  ∀ w : RecWord, ∃ len i0 s0 i1 s1 : Byte, w = len ++ i0 ++ s0 ++ i1 ++ s1

/-- R75: a FIDX_W-bit entry is ENDLIB when it is all ones and PAT of its value otherwise; a wider number is
no entry. -/
def Obligations.EntryKindByValue : Prop :=
  ∀ fidxW e : Nat,
    (e = 2 ^ fidxW - 1 → decodeEntry fidxW e = .ok .endlib) ∧
    (e < 2 ^ fidxW - 1 → decodeEntry fidxW e = .ok (.pat e)) ∧
    (2 ^ fidxW ≤ e → decodeEntry fidxW e = .error .entryTooWide)

/-- Decoding an encoded well-formed instruction gives it back, for every instruction, every operand and
every FIDX_W. -/
def Obligations.DecodeOfEncode : Prop :=
  ∀ (fidxW : Nat) (i : Instr), i.wf fidxW = true → decode fidxW (encode fidxW i) = .ok i

/-- Encoding a decoded table element gives it back: no bit of a word is dropped, and what is decoded is
well-formed. That the ignored bytes of HOLD and END are kept and encoded again, where R82's notation emits
them as 0, is the model's choice (log 14). -/
def Obligations.EncodeOfDecode : Prop :=
  ∀ (fidxW : Nat) (x : TableWord) (i : Instr), 1 ≤ fidxW → decode fidxW x = .ok i →
    encode fidxW i = x ∧ i.wf fidxW = true

/-- The bytes the hardware ignores (R79): the two `inc` bytes of HOLD, all four bytes of END. -/
def Obligations.IgnoredBytesHaveNoEffect : Prop :=
  ∀ (a b c d a' b' c' d' : Byte) (s : State),
    exec (.hold a b c d) s = exec (.hold a b' c d') s ∧
    exec (.endMark a b c d) s = exec (.endMark a' b' c' d') s

/-! The library and the parameters. -/

/-- The check the model runs is the predicate W1 to W4 of R78, with the bound on the store's size that R75's
index width gives (log 9). -/
def Obligations.LibraryCheckIsThePredicate : Prop :=
  ∀ c : Config, libraryWf c = true ↔
    c.frags.length ≤ 2 ^ c.fidxW - 1 ∧
    ∃ n, 1 ≤ n ∧ n ≤ 255 ∧ c.dir[n]? = some (2 ^ c.fidxW - 1) ∧
      ∀ p, p < n → ∃ d, c.dir[p]? = some d ∧ d ≠ 2 ^ c.fidxW - 1 ∧
        (∃ r, readFrag c d = some r ∧ r.len ≠ 255#8) ∧
        ∃ t, d ≤ t ∧ (∀ j, d ≤ j → j < t → ∃ r, readFrag c j = some r ∧ r.len ≠ 0#8 ∧ r.len ≠ 255#8) ∧
          ∃ r, readFrag c t = some r ∧ (r.len = 0#8 ∨ r.len = 255#8)

/-- R2, R80: an ill-formed configuration is refused by RESET and by every step. -/
def Obligations.IllFormedConfigurationRefused : Prop :=
  ∀ s : State, configWf s.cfg = false →
    powerOn s = .refused .illFormedConfiguration ∧ step s = .refused .illFormedConfiguration

/-- R2, R35, R51, R52, R64: no step changes a parameter or a table. -/
def Obligations.ConfigurationIsConstant : Prop :=
  ∀ s t : State, step s = .next t → t.cfg = s.cfg

/-! Reset. -/

/-- The cells of `State.reset` for which R37 states a value, CNT, OUT, TGT, CD and FP; the other cells and
the parameters are the model's choices (logs 2, 3). `timer` is no cell of R37: R211 arms the timer with
R99's constant, and that State shows it is the model's choice (log 10). -/
def Obligations.ResetCells : Prop :=
  State.reset.cnt = State.reset.cfg.limit ∧ State.reset.out = ⟨0#1, 0#1⟩ ∧
  State.reset.tgt = ⟨0#8, 0#8⟩ ∧ State.reset.cd = 0#8 ∧ State.reset.fp = true ∧
  State.reset.timer = tmrReload State.reset.cfg

/-- RESET of any state with a well-formed configuration (R37, R211, R212): the boot index `b`, the boot
fragment `r` at `d = Dir(b)`, and every cell; the store, the parameters and the coming samples stay. The
fields `lat` and `timer` are the model's own (logs 6, 10). -/
def Obligations.PowerOnCells : Prop :=
  ∀ s : State, configWf s.cfg = true → ∃ n b d r,
    npat s.cfg = some n ∧
    (s.cfg.persist = false → b = 0#8) ∧
    (s.cfg.persist = true → (Memory.read s.nv s.cfg.nvAddr).toNat < n →
      b = Memory.read s.nv s.cfg.nvAddr) ∧
    (s.cfg.persist = true → n ≤ (Memory.read s.nv s.cfg.nvAddr).toNat → b = 0#8) ∧
    readDir s.cfg b.toNat = some d ∧ readFrag s.cfg d = some r ∧
    powerOn s = .next { s with
      cnt := s.cfg.limit, out := ⟨0#1, 0#1⟩, tgt := ⟨0#8, 0#8⟩, int := r.init, fc := r.len,
      pidx := b, fptr := d, cd := 0#8, fp := true, lat := 0, timer := tmrReload s.cfg }

/-- R181: a persisted index outside the valid range boots pattern 0; the bad byte stays in the store; and
but for that byte the state is the one an index of 0 boots, so nothing records that the test fired. -/
def Obligations.BadPersistedIndexBootsZero : Prop :=
  ∀ (s : State) (n : Nat), configWf s.cfg = true → s.cfg.persist = true → npat s.cfg = some n →
    n ≤ (Memory.read s.nv s.cfg.nvAddr).toNat →
    ∃ t, powerOn s = .next t ∧ t.pidx = 0#8 ∧ t.nv = s.nv ∧
      ∀ m : Memory, Memory.read m s.cfg.nvAddr = 0#8 →
        powerOn { s with nv := m } = .next { t with nv := m }

/-- R145 and the round trip V-RST-6: with PERSIST, a RESET after a pattern change comes back to the pattern
the selector chose, at its first fragment. -/
def Obligations.PersistedIndexRoundTrip : Prop :=
  ∀ (s : State) (n : Nat), configWf s.cfg = true → s.cfg.persist = true → npat s.cfg = some n →
    s.pidx.toNat < n → Memory.wf s.nv = true → changeDue s = true →
    (∃ r, readFrag s.cfg s.fptr = some r) →
    ∃ t u, seqStep s = .next t ∧ powerOn t = .next u ∧ u.pidx = t.pidx ∧ u.fptr = t.fptr ∧
      u.fc = t.fc ∧ u.int = t.int

/-- The first window (R215): from RESET, the pins are low after each of the first L steps, and the L-th
step publishes the boot fragment's `init`. That TGT and OUT start at 0 is decision D6 of the spec. -/
def Obligations.FirstWindowIsDark : Prop :=
  ∀ s u : State, powerOn s = .next u →
    (∀ k, k < s.cfg.limit.toNat → ∃ t, steps k u = .next t ∧ t.out = ⟨0#1, 0#1⟩ ∧ t.tgt = ⟨0#8, 0#8⟩) ∧
    ∃ t, steps s.cfg.limit.toNat u = .next t ∧ t.out = ⟨0#1, 0#1⟩ ∧ t.tgt = u.int ∧ t.fp = false

/-! The modulator. -/

/-- R91, R92: a TICK writes 1 to a pin exactly when the channel's target is above the count it finds, and a
sequencer run leaves the pins. -/
def Obligations.PinsCompareTargetWithCount : Prop :=
  (∀ (s : State) (c : Channel),
    (s.cnt.toNat < (s.tgt.get c).toNat → (tick s).out.get c = 1#1) ∧
    ((s.tgt.get c).toNat ≤ s.cnt.toNat → (tick s).out.get c = 0#1)) ∧
  ∀ s t : State, seqStep s = .next t → t.out = s.out

/-- R93: after the port write, which uses the count before the decrement, the counter is decremented; at 0
it is reloaded and the frame boundary occurs; else no event. That the boundary with FP = 1 sets TGT to INT
and clears FP is R162 with decision D2 of the spec (log 20). -/
def Obligations.CounterReloadsAtZero : Prop :=
  ∀ s : State,
    (∀ c, (tick s).out.get c = gtU (s.tgt.get c) s.cnt) ∧
    (s.cnt - 1#8 = 0#8 → (tick s).cnt = s.cfg.limit ∧
      (s.fp = true → (tick s).fp = false ∧ (tick s).tgt = s.int)) ∧
    (s.cnt - 1#8 ≠ 0#8 → (tick s).cnt = s.cnt - 1#8 ∧ (tick s).fp = s.fp ∧ (tick s).tgt = s.tgt)

/-- A whole TICK (R94, R162, R165): in an ordinary tick the pins, the count and the timer; at a boundary
with FP = 1 also TGT, FP and the run it starts; at a boundary with FP = 0 nothing more than the reload. -/
def Obligations.TickResult : Prop :=
  ∀ s : State,
    (s.cnt ≠ 1#8 → tick s = { s with
      out := ⟨gtU s.tgt.c0 s.cnt, gtU s.tgt.c1 s.cnt⟩, cnt := s.cnt - 1#8, timer := tmrReload s.cfg }) ∧
    (s.cnt = 1#8 → s.fp = true → tick s = { s with
      out := ⟨gtU s.tgt.c0 s.cnt, gtU s.tgt.c1 s.cnt⟩, cnt := s.cfg.limit, timer := tmrReload s.cfg,
      tgt := s.int, fp := false, lat := s.cfg.seqLat }) ∧
    (s.cnt = 1#8 → s.fp = false → tick s = { s with
      out := ⟨gtU s.tgt.c0 s.cnt, gtU s.tgt.c1 s.cnt⟩, cnt := s.cfg.limit, timer := tmrReload s.cfg })

/-- R101: from every nonzero count the counter runs down to 1 and then reloads L, counts above L included;
from 0 it goes to 255 without a boundary. -/
def Obligations.CountdownFromAnyCount : Prop :=
  ∀ s : State,
    (∀ n, n < s.cnt.toNat → (ticks n s).cnt.toNat = s.cnt.toNat - n ∧ (ticks n s).tgt = s.tgt) ∧
    (s.cnt ≠ 0#8 → (ticks s.cnt.toNat s).cnt = s.cfg.limit) ∧
    (s.cnt = 0#8 → (tick s).cnt = 255#8 ∧ (tick s).fp = s.fp ∧ (tick s).tgt = s.tgt)

/-- R96: from CNT = L, after n ticks the count is L - (n mod L), which tick number n + 1 finds. -/
def Obligations.CounterSequence : Prop :=
  ∀ (s : State) (n : Nat), s.cnt = s.cfg.limit → s.cnt ≠ 0#8 →
    (ticks n s).cnt.toNat = s.cfg.limit.toNat - n % s.cfg.limit.toNat

/-- R97, R102, R226: in a window, channel c's pin is high for min(max(v, 1) - 1, L) of the L ticks, v being
its target. -/
def Obligations.HighTicksPerWindow : Prop :=
  ∀ (s : State) (c : Channel), s.cnt = s.cfg.limit → s.cnt ≠ 0#8 →
    highCount c s.cfg.limit.toNat s = min (max (s.tgt.get c).toNat 1 - 1) s.cfg.limit.toNat

/-- R98: the pin is high at the window's tick j exactly when j >= L + 2 - v: the high ticks are one run,
the window's last. -/
def Obligations.HighTicksAreTheLast : Prop :=
  ∀ (s : State) (c : Channel) (j : Nat), s.cnt = s.cfg.limit → 1 ≤ j → j ≤ s.cfg.limit.toNat →
    ((ticks j s).out.get c = 1#1 ↔ s.cfg.limit.toNat + 2 ≤ j + (s.tgt.get c).toNat)

/-- R99: the reload constant every TICK hands to the timer. That State shows the constant is the model's choice (log 10). -/
def Obligations.TimerReloadConstant : Prop :=
  ∀ s : State, s.cfg.tmrCountsPerTick ≤ 256 →
    (tick s).timer.toNat = (256 - s.cfg.tmrCountsPerTick + s.cfg.irqLatencyCounts) % 256

/-! The handoff. -/

/-- R169, R23: TGT changes only in a boundary TICK with FP = 1, to INT, both channels together, and the
pins of that TICK are still compared with the old targets. -/
def Obligations.TargetsChangeOnlyAtABoundary : Prop :=
  ∀ s t : State, step s = .next t → t.tgt ≠ s.tgt →
    runDue s = false ∧ s.cnt = 1#8 ∧ s.fp = true ∧ t.tgt = s.int ∧ t.fp = false ∧
      ∀ c, t.out.get c = gtU (s.tgt.get c) s.cnt

/-- R161: FP is cleared only by PUBLISH in a boundary TICK and set only by the end of a sequencer run. -/
def Obligations.PendingFlagHasTwoWriters : Prop :=
  ∀ s t : State, step s = .next t →
    (s.fp = true → t.fp = false → s.cnt = 1#8 ∧ t.tgt = s.int) ∧
    (s.fp = false → t.fp = true → s.lat = 0 ∧ seqStep s = .next t)

/-- R168: up to the next boundary, the pins and the count depend on CNT, TGT and L alone; no cell of the
frame context can show in them. -/
def Obligations.PinsIgnoreTheFrameContext : Prop :=
  ∀ (s u : State) (n : Nat), s.cnt = u.cnt → s.tgt = u.tgt → s.cfg.limit = u.cfg.limit →
    1 ≤ n → n ≤ s.cnt.toNat →
    (ticks n s).out = (ticks n u).out ∧ (ticks n s).cnt = (ticks n u).cnt

/-- R112, R150: INT as a run left it becomes TGT at the next boundary, and until then the old targets are
shown: the one-frame latency. The clause on `lat`, the field that schedules the run PUBLISH starts, is
log 6. -/
def Obligations.PublishedAtTheNextBoundary : Prop :=
  ∀ s : State, configWf s.cfg = true → s.fp = true → s.cnt ≠ 0#8 →
    (∀ k, k < s.cnt.toNat → ∃ t, steps k s = .next t ∧ t.tgt = s.tgt ∧ t.int = s.int ∧ t.fp = true) ∧
    ∃ t, steps s.cnt.toNat s = .next t ∧ t.tgt = s.int ∧ t.fp = false ∧ t.cnt = s.cfg.limit ∧
      t.lat = s.cfg.seqLat

/-- R166: whichever of the window's L instants the run takes, from 0 ticks after the boundary (the merged
variant) to L - 1, the window's L + 1 steps end in the same state as the run first and then L ticks. That
a run is one step, `lat` ticks after its boundary, is log 6. -/
def Obligations.FrameDoesNotDependOnLatency : Prop :=
  ∀ s : State, configWf s.cfg = true → s.fp = false → s.cnt = s.cfg.limit →
    s.lat < s.cfg.limit.toNat →
    steps (s.cfg.limit.toNat + 1) s =
      andThen (seqStep { s with lat := 0 }) (fun t => .next (ticks s.cfg.limit.toNat t))

/-- R163: a run in progress is complete, FP = 1, after its remaining ticks (`lat`, log 6) and before the next
boundary. -/
def Obligations.RunCompletesBeforeTheBoundary : Prop :=
  ∀ s : State, Inv s → configWf s.cfg = true → s.fp = false →
    ∃ t, steps (s.lat + 1) s = .next t ∧ t.fp = true ∧ t.cnt.toNat + s.lat = s.cnt.toNat ∧
      1 ≤ t.cnt.toNat ∧ t.tgt = s.tgt

/-- R163, R165: under the invariant a boundary TICK never finds FP = 0, so no frame is overrun. -/
def Obligations.NoOverrun : Prop :=
  ∀ s t : State, Inv s → step s = .next t → runDue s = false → s.cnt = 1#8 → s.fp = true

/-! A step runs the decoded instruction. -/

/-- One step performs one operation (R60, R110): where a run is due, the record FPTR names is decoded and
`exec` runs it, and the run's last action sets FP; else the step is a TICK. An END record is never current
in a well-formed library (R121); in a state where it is, it runs "like a RAMP with n = 255" (R128 (i),
log 11). -/
def Obligations.StepPerformsOneOperation : Prop :=
  (∀ (s : State) (w : RecWord), configWf s.cfg = true → s.fp = false → s.lat = 0 →
    s.cfg.frags[s.fptr]? = some w → (recordOfWord w).len ≠ 255#8 →
    step s = andThen (exec (decodeRecord w) s) (fun t => .next { t with fp := true })) ∧
  (∀ (s : State) (w : RecWord) (a b c d : Byte), configWf s.cfg = true → s.fp = false → s.lat = 0 →
    s.cfg.frags[s.fptr]? = some w → decodeRecord w = .endMark a b c d →
    step s = andThen (exec (.ramp 255#8 a b c d) s) (fun t => .next { t with fp := true })) ∧
  (∀ s : State, configWf s.cfg = true → s.fp = true → step s = .next (tickStep s)) ∧
  ∀ s : State, configWf s.cfg = true → s.lat ≠ 0 → step s = .next (tickStep s)

/-- The run that ends a fragment before an END record, and the run that finds the button pressed, go on as
that record and that directory entry say (R117, R144): the record and the entry are decoded and run. -/
def Obligations.RunReachesEndAndDirectory : Prop :=
  (∀ (n i0 a0 i1 a1 : Byte) (w : RecWord) (s : State), n ≠ 0#8 → changeDue s = false → s.fc = 1#8 →
    s.cfg.frags[(s.fptr + 1) % 2 ^ s.cfg.fidxW]? = some w → (recordOfWord w).len = 255#8 →
    exec (.ramp n i0 a0 i1 a1) s =
      exec (decodeRecord w) (quietSample { s with
        int := ⟨s.int.c0 + a0, s.int.c1 + a1⟩, fc := 0#8 })) ∧
  ∀ (n i0 a0 i1 a1 : Byte) (e : Nat) (j : Instr) (s : State), n ≠ 0#8 → changeDue s = true →
    readDir s.cfg (s.pidx + 1#8).toNat = some e → decodeEntry s.cfg.fidxW e = .ok j →
    exec (.ramp n i0 a0 i1 a1) s =
      exec j { s with
        int := ⟨s.int.c0 + a0, s.int.c1 + a1⟩, btn := s.btn.tail, nsamp := s.nsamp + 1 } ∧
    exec (.hold i0 a0 i1 a1) s = exec j { s with btn := s.btn.tail, nsamp := s.nsamp + 1 }

/-! What each instruction does. -/

/-- RAMP in an ordinary run (R113, R115, R119): without a pattern change, and where FC does not reach 0,
both increments are added modulo 256 and FC counts down; nothing else but the debouncer's CD changes, and
one sample goes by (log 5). -/
def Obligations.RampAddsAndCounts : Prop :=
  ∀ (fidxW : Nat) (n i0 a0 i1 a1 : Byte) (s : State),
    (Instr.ramp n i0 a0 i1 a1).wf fidxW = true → changeDue s = false → s.fc ≠ 1#8 →
    exec (.ramp n i0 a0 i1 a1) s = .next { s with
      int := ⟨s.int.c0 + a0, s.int.c1 + a1⟩, fc := s.fc - 1#8,
      cd := if s.cd = 0#8 then 0#8 else s.cd - 1#8, btn := s.btn.tail, nsamp := s.nsamp + 1 }

/-- RAMP in its last run (R117, R118): the record after FPTR, or where that is END the pattern's first, is
loaded, FC and INT being its `len` and `init` exactly; the ramped values are discarded. That a first record
is not tested for END again is decision D24 of the spec; that one sample goes by is log 5. -/
def Obligations.FragmentEndLoadsTheNext : Prop :=
  ∀ (n i0 a0 i1 a1 : Byte) (q r : Record) (d : Nat) (s : State), n ≠ 0#8 → changeDue s = false →
    s.fc = 1#8 → readFrag s.cfg ((s.fptr + 1) % 2 ^ s.cfg.fidxW) = some q →
    ((q.len ≠ 255#8 ∧ d = (s.fptr + 1) % 2 ^ s.cfg.fidxW) ∨
      (q.len = 255#8 ∧ readDir s.cfg s.pidx.toNat = some d)) →
    readFrag s.cfg d = some r →
    exec (.ramp n i0 a0 i1 a1) s = .next { s with
      fptr := d, int := r.init, fc := r.len,
      cd := if s.cd = 0#8 then 0#8 else s.cd - 1#8, btn := s.btn.tail, nsamp := s.nsamp + 1 }

/-- HOLD without a pattern change (R116, R120): FC counts down modulo 256, whatever it becomes, and nothing
else but the debouncer's CD changes. The wrap of FC from 0 to 255 is decision D15 of the spec; that one
sample goes by is log 5. -/
def Obligations.HoldOnlyCounts : Prop :=
  ∀ (i0 a0 i1 a1 : Byte) (s : State), changeDue s = false →
    exec (.hold i0 a0 i1 a1) s = .next { s with
      fc := s.fc - 1#8, cd := if s.cd = 0#8 then 0#8 else s.cd - 1#8, btn := s.btn.tail,
      nsamp := s.nsamp + 1 }

/-- END (R117, R121): the first fragment of the current pattern is loaded, and nothing else changes. That
`exec` gives END this part of the run that finds it is the model's reading (log 16). -/
def Obligations.EndLoadsThePatternStart : Prop :=
  ∀ (i0 a0 i1 a1 : Byte) (d : Nat) (r : Record) (s : State),
    readDir s.cfg s.pidx.toNat = some d → readFrag s.cfg d = some r →
    exec (.endMark i0 a0 i1 a1) s = .next { s with fptr := d, fc := r.len, int := r.init }

/-- PAT (R143, R144, R145): the pattern change to PIDX + 1. That `exec` gives the entry the pressed branch
from `CD <- COOLDOWN` on is the model's reading (log 16). -/
def Obligations.PatChangesToTheNextPattern : Prop :=
  ∀ (first : Nat) (r : Record) (s : State), readFrag s.cfg first = some r →
    exec (.pat first) s = .next { s with
      cd := s.cfg.cooldown, pidx := s.pidx + 1#8, fptr := first, fc := r.len, int := r.init,
      nv := if s.cfg.persist then Memory.write s.nv s.cfg.nvAddr (s.pidx + 1#8) else s.nv }

/-- ENDLIB (R143, R144, R145): the pattern change to pattern 0 (log 16 as for PAT). -/
def Obligations.EndlibChangesToPatternZero : Prop :=
  ∀ (d : Nat) (r : Record) (s : State), readDir s.cfg 0 = some d → readFrag s.cfg d = some r →
    exec .endlib s = .next { s with
      cd := s.cfg.cooldown, pidx := 0#8, fptr := d, fc := r.len, int := r.init,
      nv := if s.cfg.persist then Memory.write s.nv s.cfg.nvAddr 0#8 else s.nv }

/-! Frames. -/

/-- The frame of RAMP and HOLD (R34, R119, R120): a run writes INT, FC, FPTR and, through the debouncer, CD,
PIDX and the store's one byte; PIDX and every byte of the store stay where no pattern change is made, and
every byte but NV_ADDR's stays in any case. A HOLD run without a pattern change leaves INT and FPTR too. One
sample goes by (log 5). -/
def Obligations.RunFrame : Prop :=
  ∀ (i : Instr) (s t : State),
    ((∃ n a b c d, i = .ramp n a b c d) ∨ ∃ a b c d, i = .hold a b c d) → exec i s = .next t →
    t.cfg = s.cfg ∧ t.cnt = s.cnt ∧ t.out = s.out ∧ t.tgt = s.tgt ∧ t.fp = s.fp ∧ t.lat = s.lat ∧
    t.timer = s.timer ∧ t.btn = s.btn.tail ∧ t.nsamp = s.nsamp + 1 ∧
    (changeDue s = false → t.pidx = s.pidx) ∧
    (changeDue s = false → (∃ a b c d, i = .hold a b c d) → t.int = s.int ∧ t.fptr = s.fptr) ∧
    ∀ a, (a ≠ s.cfg.nvAddr ∨ s.cfg.persist = false ∨ changeDue s = false) →
      Memory.read t.nv a = Memory.read s.nv a

/-- The frame of END, PAT and ENDLIB (R121, R143, R145): every cell of the tick context, FP and every byte of
the store stay, but for NV_ADDR's byte after PAT and ENDLIB under PERSIST; END leaves PIDX and CD too. That
`exec` of one of the three alone is this part of a run, and takes no sample, is the model's reading
(logs 16, 5). -/
def Obligations.ElementFrame : Prop :=
  ∀ (i : Instr) (s t : State), ((∃ a b c d, i = .endMark a b c d) ∨ (∃ p, i = .pat p) ∨ i = .endlib) →
    exec i s = .next t →
    t.cfg = s.cfg ∧ t.cnt = s.cnt ∧ t.out = s.out ∧ t.tgt = s.tgt ∧ t.fp = s.fp ∧ t.lat = s.lat ∧
    t.timer = s.timer ∧ t.btn = s.btn ∧ t.nsamp = s.nsamp ∧
    ((∃ a b c d, i = .endMark a b c d) → t.pidx = s.pidx ∧ t.cd = s.cd) ∧
    ∀ x, (x ≠ s.cfg.nvAddr ∨ s.cfg.persist = false ∨ ∃ a b c d, i = .endMark a b c d) →
      Memory.read t.nv x = Memory.read s.nv x

/-- R65: every fetch outside the tables is refused by name: the current record, the successor at a
fragment's end, the directory entry a wrap or a pattern change reads, the record such an entry names (log 8).
That `exec` of END, PAT and ENDLIB alone makes the last of these fetches is the model's reading (log 16). -/
def Obligations.FetchOutsideTheTablesIsRefused : Prop :=
  ∀ (s : State) (n i0 a0 i1 a1 : Byte) (d : Nat), n ≠ 0#8 →
    (readFrag s.cfg s.fptr = none → seqStep s = .refused (.fragmentOutsideStore s.fptr)) ∧
    (changeDue s = false → s.fc = 1#8 → readFrag s.cfg ((s.fptr + 1) % 2 ^ s.cfg.fidxW) = none →
      exec (.ramp n i0 a0 i1 a1) s =
        .refused (.fragmentOutsideStore ((s.fptr + 1) % 2 ^ s.cfg.fidxW))) ∧
    (changeDue s = true → readDir s.cfg (s.pidx + 1#8).toNat = none →
      exec (.ramp n i0 a0 i1 a1) s = .refused (.entryOutsideDirectory (s.pidx + 1#8).toNat) ∧
      exec (.hold i0 a0 i1 a1) s = .refused (.entryOutsideDirectory (s.pidx + 1#8).toNat)) ∧
    (readDir s.cfg s.pidx.toNat = none →
      exec (.endMark i0 a0 i1 a1) s = .refused (.entryOutsideDirectory s.pidx.toNat)) ∧
    (readDir s.cfg s.pidx.toNat = some d → readFrag s.cfg d = none →
      exec (.endMark i0 a0 i1 a1) s = .refused (.fragmentOutsideStore d)) ∧
    (readFrag s.cfg d = none → exec (.pat d) s = .refused (.fragmentOutsideStore d)) ∧
    (readDir s.cfg 0 = none → exec .endlib s = .refused (.entryOutsideDirectory 0)) ∧
    (readDir s.cfg 0 = some d → readFrag s.cfg d = none →
      exec .endlib s = .refused (.fragmentOutsideStore d))

/-! The selector. -/

/-- R142: with CD above 0 the debouncer decrements it and does nothing else, whatever the button's level,
and the run goes on to step 4 and counts FC; the sample goes by (log 5). -/
def Obligations.CooldownBranch : Prop :=
  ∀ s : State, s.cd ≠ 0#8 →
    debounce s = .next (false, { s with
      cd := s.cd - 1#8, btn := s.btn.tail, nsamp := s.nsamp + 1 }) ∧
    (∀ i0 a0 i1 a1 : Byte, exec (.hold i0 a0 i1 a1) s = .next { s with
      cd := s.cd - 1#8, fc := s.fc - 1#8, btn := s.btn.tail, nsamp := s.nsamp + 1 }) ∧
    ∀ n i0 a0 i1 a1 : Byte, n ≠ 0#8 → s.fc ≠ 1#8 → exec (.ramp n i0 a0 i1 a1) s = .next { s with
      int := ⟨s.int.c0 + a0, s.int.c1 + a1⟩, cd := s.cd - 1#8, fc := s.fc - 1#8, btn := s.btn.tail,
      nsamp := s.nsamp + 1 }

/-- R148: with CD = 0 and the button released the debouncer changes nothing; the sample goes by (log 5). -/
def Obligations.IdleBranch : Prop :=
  ∀ s : State, s.cd = 0#8 → buttonAt s 0 = 1#1 →
    debounce s = .next (false, { s with btn := s.btn.tail, nsamp := s.nsamp + 1 })

/-- R143, R114: a run that finds CD = 0 and the button pressed. `p` and `d` are the next pattern and its
first fragment as R144 says, `q` is that fragment's record; the ramp addition is overwritten and FC is not
counted down, whether the current record was RAMP or HOLD. One sample goes by (log 5). -/
def Obligations.PressedBranch : Prop :=
  ∀ (n i0 a0 i1 a1 p : Byte) (e d : Nat) (q : Record) (s : State),
    s.cd = 0#8 → buttonAt s 0 = 0#1 → readDir s.cfg (s.pidx + 1#8).toNat = some e →
    ((e ≠ nullFrag s.cfg.fidxW ∧ p = s.pidx + 1#8 ∧ d = e) ∨
      (e = nullFrag s.cfg.fidxW ∧ p = 0#8 ∧ readDir s.cfg 0 = some d)) →
    readFrag s.cfg d = some q → ∀ t : State,
    t = { s with
      cd := s.cfg.cooldown, pidx := p, fptr := d, fc := q.len, int := q.init,
      nv := if s.cfg.persist then Memory.write s.nv s.cfg.nvAddr p else s.nv,
      btn := s.btn.tail, nsamp := s.nsamp + 1 } →
    exec (.ramp n i0 a0 i1 a1) s = .next t ∧ exec (.hold i0 a0 i1 a1) s = .next t

/-- R144: on a well-formed library a pattern change goes to (PIDX + 1) mod NPAT, at that pattern's first
fragment, with CD = COOLDOWN; TGT is not touched. -/
def Obligations.NextPatternIsModulo : Prop :=
  ∀ (s : State) (n : Nat), configWf s.cfg = true → npat s.cfg = some n → s.pidx.toNat < n →
    changeDue s = true → (∃ r, readFrag s.cfg s.fptr = some r) →
    ∃ t q, seqStep s = .next t ∧ t.pidx.toNat = (s.pidx.toNat + 1) % n ∧
      readDir s.cfg t.pidx.toNat = some t.fptr ∧ readFrag s.cfg t.fptr = some q ∧ t.fc = q.len ∧
      t.int = q.init ∧ t.cd = s.cfg.cooldown ∧ t.tgt = s.tgt

/-- R145: a run with a pattern change leaves the new index in the store under PERSIST, and a RESET reads it
back; every other run, and every run without PERSIST, leaves the store as it was. -/
def Obligations.PatternChangeIsPersisted : Prop :=
  ∀ s t : State, Memory.wf s.nv = true → seqStep s = .next t →
    (s.cfg.persist = true → changeDue s = true → Memory.read t.nv s.cfg.nvAddr = t.pidx) ∧
    ((s.cfg.persist = false ∨ changeDue s = false) → t.nv = s.nv) ∧
    (s.cfg.persist = true → changeDue s = true → configWf s.cfg = true →
      (∃ n, npat s.cfg = some n ∧ s.pidx.toNat < n) → ∃ u, powerOn t = .next u ∧ u.pidx = t.pidx)

/-- R149: from PIDX = i, k pattern changes in a row visit i + 1, i + 2, ... modulo NPAT, each at its first
fragment. -/
def Obligations.PatternsAreCycled : Prop :=
  ∀ (s : State) (n : Nat), configWf s.cfg = true → npat s.cfg = some n → s.pidx.toNat < n →
    ∀ k, ∃ t, changes k s = .next t ∧ t.pidx.toNat = (s.pidx.toNat + k) % n ∧
      (1 ≤ k → readDir s.cfg t.pidx.toNat = some t.fptr)

/-- R146: after a pattern change CD = COOLDOWN, and in the next COOLDOWN runs, whatever the button does, no
pattern change is made; the run after them acts exactly when it finds the button pressed. -/
def Obligations.HeldButtonActsOncePerWindow : Prop :=
  ∀ (s : State) (k : Nat), configWf s.cfg = true → positionOk s → frameCountOk s →
    s.cd = s.cfg.cooldown → k ≤ s.cfg.cooldown.toNat →
    ∃ t, runs k s = .next t ∧ t.pidx = s.pidx ∧ t.nv = s.nv ∧ t.cd.toNat = s.cfg.cooldown.toNat - k ∧
      (k < s.cfg.cooldown.toNat → changeDue t = false) ∧
      (k = s.cfg.cooldown.toNat → changeDue t = pressed (buttonAt s k))

/-- R186, R188: PIDX and the store change only in a run that finds CD = 0 and the button pressed. -/
def Obligations.OnlyAPressChangesThePattern : Prop :=
  ∀ s t : State, step s = .next t → (t.pidx ≠ s.pidx ∨ t.nv ≠ s.nv) →
    runDue s = true ∧ s.cd = 0#8 ∧ buttonAt s 0 = 0#1

/-! The sequencer over many runs. -/

/-- R123: in the k-th run of a RAMP fragment, k below its `len`, channel c's intensity is
init + k * inc modulo 256, FC is len - k, and the fragment is still current. -/
def Obligations.LinearFormula : Prop :=
  ∀ (s : State) (r : Record) (k : Nat), justLoaded s r → k < r.len.toNat → quiet k s →
    ∃ t, runs k s = .next t ∧
      (∀ c, (t.int.get c).toNat = ((r.init.get c).toNat + k * (r.inc.get c).toNat) % 256) ∧
      t.fc.toNat = r.len.toNat - k ∧ t.fptr = s.fptr ∧ t.pidx = s.pidx

/-- R119, R123 at the pins' side: from a RAMP fragment just loaded, with its pair pending, the k-th window
(k below `len`) is opened with the targets init + k * inc modulo 256, whatever SEQ_LAT is. The window of
boundary k + 1 opens after the ticks to the first boundary and k windows of L ticks and one run each. That
a run counts as one step is the model's reading (log 6). -/
def Obligations.WindowsShowTheRamp : Prop :=
  ∀ (s : State) (r : Record) (k : Nat), configWf s.cfg = true → s.fp = true → s.lat = 0 →
    s.cnt ≠ 0#8 → justLoaded s r → k < r.len.toNat → quiet k s →
    ∃ t, steps (s.cnt.toNat + k * (s.cfg.limit.toNat + 1)) s = .next t ∧ t.cnt = s.cfg.limit ∧
      t.fp = false ∧ ∀ c, (t.tgt.get c).toNat = ((r.init.get c).toNat + k * (r.inc.get c).toNat) % 256

/-- R124: a RAMP of `len` = n is current for exactly n runs: the n-th loads the successor, whose `init` is
then in INT; before an END record the successor is the pattern's first fragment. -/
def Obligations.RampLastsItsLength : Prop :=
  ∀ (s : State) (r q : Record), justLoaded s r → quiet r.len.toNat s →
    readFrag s.cfg ((s.fptr + 1) % 2 ^ s.cfg.fidxW) = some q →
    (q.len ≠ 255#8 → ∃ t, runs r.len.toNat s = .next t ∧
      t.fptr = (s.fptr + 1) % 2 ^ s.cfg.fidxW ∧ t.fc = q.len ∧ t.int = q.init) ∧
    (q.len = 255#8 → ∀ d r', readDir s.cfg s.pidx.toNat = some d → readFrag s.cfg d = some r' →
      ∃ t, runs r.len.toNat s = .next t ∧ t.fptr = d ∧ t.fc = r'.len ∧ t.int = r'.init)

/-- R120, R116: a HOLD fragment stays as it is for any number of runs without a pattern change; FC goes
round modulo 256 (decision D15 of the spec). -/
def Obligations.HoldLastsForEver : Prop :=
  ∀ (s : State) (r : Record) (k : Nat), readFrag s.cfg s.fptr = some r → r.len = 0#8 → quiet k s →
    ∃ t, runs k s = .next t ∧ t.int = s.int ∧ t.fptr = s.fptr ∧ t.pidx = s.pidx ∧
      t.fc = s.fc - BitVec.ofNat 8 k

/-- R122: a HOLD fragment is left by no step but one that makes a pattern change. -/
def Obligations.HoldIsLeftOnlyByAPress : Prop :=
  ∀ (s t : State) (r : Record), readFrag s.cfg s.fptr = some r → r.len = 0#8 → step s = .next t →
    t.fptr ≠ s.fptr ∨ t.int ≠ s.int → runDue s = true ∧ changeDue s = true

/-- R125: a pattern of m RAMP records closed by END comes back to its first fragment, freshly loaded, after
as many runs as its lengths add up to. -/
def Obligations.PatternRepeatsWithItsPeriod : Prop :=
  ∀ (s : State) (d m : Nat) (r q : Record), readDir s.cfg s.pidx.toNat = some d → s.fptr = d →
    justLoaded s r → 1 ≤ m → d + m < 2 ^ s.cfg.fidxW →
    (∀ j, j < m → ∃ x, readFrag s.cfg (d + j) = some x ∧ isRamp x) →
    readFrag s.cfg (d + m) = some q → q.len = 255#8 → quiet (framesOf s.cfg d m) s →
    ∃ t, runs (framesOf s.cfg d m) s = .next t ∧ t.fptr = d ∧ t.fc = r.len ∧ t.int = r.init ∧
      t.pidx = s.pidx

/-! The whole machine. -/

/-- R122, R225: there is no halt and no error state: under the invariant every step answers a next state. -/
def Obligations.EngineNeverStops : Prop :=
  ∀ s : State, Inv s → configWf s.cfg = true → ∃ t, step s = .next t

/-- R33: every step keeps the invariant, from every state that meets it. -/
def Obligations.StepKeepsTheInvariant : Prop :=
  ∀ s t : State, Inv s → step s = .next t → Inv t

/-- The state after reset meets the invariant. -/
def Obligations.ResetMeetsTheInvariant : Prop := Inv State.reset

/-- RESET of any state with a canonical store and a well-formed configuration meets the invariant (R33,
R37). -/
def Obligations.PowerOnMeetsTheInvariant : Prop :=
  ∀ s : State, configWf s.cfg = true → Memory.wf s.nv = true → ∃ t, powerOn s = .next t ∧ Inv t

/-- R53: a read of the store gives the last byte written to its address, and a write leaves every other
address. -/
def Obligations.StoreReadsTheLastWrite : Prop :=
  ∀ (m : Memory) (a b : Nat) (v : Byte), Memory.wf m = true →
    Memory.read (Memory.write m a v) a = v ∧
    (b ≠ a → Memory.read (Memory.write m a v) b = Memory.read m b)

/-- R3: INT, FC, CD and CNT are added to and counted down modulo 256, without saturation. -/
def Obligations.ArithmeticIsModulo256 : Prop :=
  ∀ (s : State) (inc : Pair Byte) (c : Channel),
    ((s.rampAdded inc).int.get c).toNat = ((s.int.get c).toNat + (inc.get c).toNat) % 256 ∧
    (s.fcDecremented).fc.toNat = (s.fc.toNat + 255) % 256 ∧
    (s.cdDecremented).cd.toNat = (s.cd.toNat + 255) % 256 ∧
    (atBoundary s = false → (tick s).cnt.toNat = (s.cnt.toNat + 255) % 256)

end
end

