-- ==== Sys2Proof/Laws/Decode.lean ====
section
/-! SUPPORT. The fields of a word and the word of fields, in both directions. -/

namespace Sys2Proof

/-- The five bytes of a word, each at its place (R70). -/
theorem byte_fields (a b c d e : Byte) :
    (a ++ b ++ c ++ d ++ e : RecWord).extractLsb' 32 8 = a ∧
    (a ++ b ++ c ++ d ++ e : RecWord).extractLsb' 24 8 = b ∧
    (a ++ b ++ c ++ d ++ e : RecWord).extractLsb' 16 8 = c ∧
    (a ++ b ++ c ++ d ++ e : RecWord).extractLsb' 8 8 = d ∧
    (a ++ b ++ c ++ d ++ e : RecWord).extractLsb' 0 8 = e := by
  refine ⟨?_, ?_, ?_, ?_, ?_⟩ <;>
  · apply BitVec.eq_of_getLsbD_eq
    intro i hi
    simp only [BitVec.getLsbD_extractLsb', BitVec.getLsbD_append, hi, decide_true, Bool.true_and]
    repeat' split
    all_goals first | omega | (congr 1; omega)

/-- The fields of a record written out byte by byte (R70). -/
theorem recordOfWord_bytes (a b c d e : Byte) :
    recordOfWord (a ++ b ++ c ++ d ++ e) = ⟨a, ⟨b, d⟩, ⟨c, e⟩⟩ := by
  obtain ⟨h1, h2, h3, h4, h5⟩ := byte_fields a b c d e
  simp only [recordOfWord, h1, h2, h3, h4, h5]

/-- Every word is its five bytes (R70). -/
theorem fields_byte (w : RecWord) :
    (w.extractLsb' 32 8 ++ w.extractLsb' 24 8 ++ w.extractLsb' 16 8 ++ w.extractLsb' 8 8 ++
      w.extractLsb' 0 8 : RecWord) = w := by
  apply BitVec.eq_of_getLsbD_eq
  intro i hi
  simp only [BitVec.getLsbD_extractLsb', BitVec.getLsbD_append]
  by_cases h0 : i < 8
  · simp [h0]
  by_cases h1 : i - 8 < 8
  · simp [h0, h1]; congr 1; omega
  by_cases h2 : i - 8 - 8 < 8
  · simp [h0, h1, h2]; congr 1; omega
  by_cases h3 : i - 8 - 8 - 8 < 8
  · simp [h0, h1, h2, h3]; congr 1; omega
  have h4 : i - 8 - 8 - 8 - 8 < 8 := by omega
  simp [h0, h1, h2, h3, h4]; congr 1; omega

@[simp] theorem recordOfWord_wordOfRecord (r : Record) : recordOfWord (wordOfRecord r) = r :=
  recordOfWord_bytes _ _ _ _ _

@[simp] theorem wordOfRecord_recordOfWord (w : RecWord) : wordOfRecord (recordOfWord w) = w :=
  fields_byte w

end Sys2Proof
end

