-- ==== Sys2Proof/Laws/State.lean ====
section
/-! SUPPORT. What each register update leaves in each field of State, so that no proof unfolds one. -/

namespace Sys2Proof.Machine

@[simp] theorem State.setPending_cfg (s : State) : s.setPending.cfg = s.cfg := rfl
@[simp] theorem State.setPending_cnt (s : State) : s.setPending.cnt = s.cnt := rfl
@[simp] theorem State.setPending_out (s : State) : s.setPending.out = s.out := rfl
@[simp] theorem State.setPending_tgt (s : State) : s.setPending.tgt = s.tgt := rfl
@[simp] theorem State.setPending_int (s : State) : s.setPending.int = s.int := rfl
@[simp] theorem State.setPending_fc (s : State) : s.setPending.fc = s.fc := rfl
@[simp] theorem State.setPending_pidx (s : State) : s.setPending.pidx = s.pidx := rfl
@[simp] theorem State.setPending_fptr (s : State) : s.setPending.fptr = s.fptr := rfl
@[simp] theorem State.setPending_cd (s : State) : s.setPending.cd = s.cd := rfl
@[simp] theorem State.setPending_fp (s : State) : s.setPending.fp = true := rfl
@[simp] theorem State.setPending_nv (s : State) : s.setPending.nv = s.nv := rfl
@[simp] theorem State.setPending_btn (s : State) : s.setPending.btn = s.btn := rfl
@[simp] theorem State.setPending_nsamp (s : State) : s.setPending.nsamp = s.nsamp := rfl
@[simp] theorem State.setPending_lat (s : State) : s.setPending.lat = s.lat := rfl
@[simp] theorem State.setPending_timer (s : State) : s.setPending.timer = s.timer := rfl

@[simp] theorem State.rampAdded_cfg (s : State) (inc : Pair Byte) :
    (s.rampAdded inc).cfg = s.cfg := rfl
@[simp] theorem State.rampAdded_cnt (s : State) (inc : Pair Byte) :
    (s.rampAdded inc).cnt = s.cnt := rfl
@[simp] theorem State.rampAdded_out (s : State) (inc : Pair Byte) :
    (s.rampAdded inc).out = s.out := rfl
@[simp] theorem State.rampAdded_tgt (s : State) (inc : Pair Byte) :
    (s.rampAdded inc).tgt = s.tgt := rfl
@[simp] theorem State.rampAdded_int (s : State) (inc : Pair Byte) :
    (s.rampAdded inc).int = addPair s.int inc := rfl
@[simp] theorem State.rampAdded_fc (s : State) (inc : Pair Byte) :
    (s.rampAdded inc).fc = s.fc := rfl
@[simp] theorem State.rampAdded_pidx (s : State) (inc : Pair Byte) :
    (s.rampAdded inc).pidx = s.pidx := rfl
@[simp] theorem State.rampAdded_fptr (s : State) (inc : Pair Byte) :
    (s.rampAdded inc).fptr = s.fptr := rfl
@[simp] theorem State.rampAdded_cd (s : State) (inc : Pair Byte) :
    (s.rampAdded inc).cd = s.cd := rfl
@[simp] theorem State.rampAdded_fp (s : State) (inc : Pair Byte) :
    (s.rampAdded inc).fp = s.fp := rfl
@[simp] theorem State.rampAdded_nv (s : State) (inc : Pair Byte) :
    (s.rampAdded inc).nv = s.nv := rfl
@[simp] theorem State.rampAdded_btn (s : State) (inc : Pair Byte) :
    (s.rampAdded inc).btn = s.btn := rfl
@[simp] theorem State.rampAdded_nsamp (s : State) (inc : Pair Byte) :
    (s.rampAdded inc).nsamp = s.nsamp := rfl
@[simp] theorem State.rampAdded_lat (s : State) (inc : Pair Byte) :
    (s.rampAdded inc).lat = s.lat := rfl
@[simp] theorem State.rampAdded_timer (s : State) (inc : Pair Byte) :
    (s.rampAdded inc).timer = s.timer := rfl

@[simp] theorem State.fcDecremented_cfg (s : State) : s.fcDecremented.cfg = s.cfg := rfl
@[simp] theorem State.fcDecremented_cnt (s : State) : s.fcDecremented.cnt = s.cnt := rfl
@[simp] theorem State.fcDecremented_out (s : State) : s.fcDecremented.out = s.out := rfl
@[simp] theorem State.fcDecremented_tgt (s : State) : s.fcDecremented.tgt = s.tgt := rfl
@[simp] theorem State.fcDecremented_int (s : State) : s.fcDecremented.int = s.int := rfl
@[simp] theorem State.fcDecremented_fc (s : State) : s.fcDecremented.fc = s.fc - 1#8 := rfl
@[simp] theorem State.fcDecremented_pidx (s : State) : s.fcDecremented.pidx = s.pidx := rfl
@[simp] theorem State.fcDecremented_fptr (s : State) : s.fcDecremented.fptr = s.fptr := rfl
@[simp] theorem State.fcDecremented_cd (s : State) : s.fcDecremented.cd = s.cd := rfl
@[simp] theorem State.fcDecremented_fp (s : State) : s.fcDecremented.fp = s.fp := rfl
@[simp] theorem State.fcDecremented_nv (s : State) : s.fcDecremented.nv = s.nv := rfl
@[simp] theorem State.fcDecremented_btn (s : State) : s.fcDecremented.btn = s.btn := rfl
@[simp] theorem State.fcDecremented_nsamp (s : State) : s.fcDecremented.nsamp = s.nsamp := rfl
@[simp] theorem State.fcDecremented_lat (s : State) : s.fcDecremented.lat = s.lat := rfl
@[simp] theorem State.fcDecremented_timer (s : State) : s.fcDecremented.timer = s.timer := rfl

@[simp] theorem State.cdDecremented_cfg (s : State) : s.cdDecremented.cfg = s.cfg := rfl
@[simp] theorem State.cdDecremented_cnt (s : State) : s.cdDecremented.cnt = s.cnt := rfl
@[simp] theorem State.cdDecremented_out (s : State) : s.cdDecremented.out = s.out := rfl
@[simp] theorem State.cdDecremented_tgt (s : State) : s.cdDecremented.tgt = s.tgt := rfl
@[simp] theorem State.cdDecremented_int (s : State) : s.cdDecremented.int = s.int := rfl
@[simp] theorem State.cdDecremented_fc (s : State) : s.cdDecremented.fc = s.fc := rfl
@[simp] theorem State.cdDecremented_pidx (s : State) : s.cdDecremented.pidx = s.pidx := rfl
@[simp] theorem State.cdDecremented_fptr (s : State) : s.cdDecremented.fptr = s.fptr := rfl
@[simp] theorem State.cdDecremented_cd (s : State) : s.cdDecremented.cd = s.cd - 1#8 := rfl
@[simp] theorem State.cdDecremented_fp (s : State) : s.cdDecremented.fp = s.fp := rfl
@[simp] theorem State.cdDecremented_nv (s : State) : s.cdDecremented.nv = s.nv := rfl
@[simp] theorem State.cdDecremented_btn (s : State) : s.cdDecremented.btn = s.btn := rfl
@[simp] theorem State.cdDecremented_nsamp (s : State) : s.cdDecremented.nsamp = s.nsamp := rfl
@[simp] theorem State.cdDecremented_lat (s : State) : s.cdDecremented.lat = s.lat := rfl
@[simp] theorem State.cdDecremented_timer (s : State) : s.cdDecremented.timer = s.timer := rfl

@[simp] theorem State.sampleTaken_cfg (s : State) : s.sampleTaken.cfg = s.cfg := rfl
@[simp] theorem State.sampleTaken_cnt (s : State) : s.sampleTaken.cnt = s.cnt := rfl
@[simp] theorem State.sampleTaken_out (s : State) : s.sampleTaken.out = s.out := rfl
@[simp] theorem State.sampleTaken_tgt (s : State) : s.sampleTaken.tgt = s.tgt := rfl
@[simp] theorem State.sampleTaken_int (s : State) : s.sampleTaken.int = s.int := rfl
@[simp] theorem State.sampleTaken_fc (s : State) : s.sampleTaken.fc = s.fc := rfl
@[simp] theorem State.sampleTaken_pidx (s : State) : s.sampleTaken.pidx = s.pidx := rfl
@[simp] theorem State.sampleTaken_fptr (s : State) : s.sampleTaken.fptr = s.fptr := rfl
@[simp] theorem State.sampleTaken_cd (s : State) : s.sampleTaken.cd = s.cd := rfl
@[simp] theorem State.sampleTaken_fp (s : State) : s.sampleTaken.fp = s.fp := rfl
@[simp] theorem State.sampleTaken_nv (s : State) : s.sampleTaken.nv = s.nv := rfl
@[simp] theorem State.sampleTaken_btn (s : State) : s.sampleTaken.btn = s.btn.tail := rfl
@[simp] theorem State.sampleTaken_nsamp (s : State) : s.sampleTaken.nsamp = s.nsamp + 1 := rfl
@[simp] theorem State.sampleTaken_lat (s : State) : s.sampleTaken.lat = s.lat := rfl
@[simp] theorem State.sampleTaken_timer (s : State) : s.sampleTaken.timer = s.timer := rfl

@[simp] theorem State.patternChosen_cfg (s : State) (p : Byte) :
    (s.patternChosen p).cfg = s.cfg := rfl
@[simp] theorem State.patternChosen_cnt (s : State) (p : Byte) :
    (s.patternChosen p).cnt = s.cnt := rfl
@[simp] theorem State.patternChosen_out (s : State) (p : Byte) :
    (s.patternChosen p).out = s.out := rfl
@[simp] theorem State.patternChosen_tgt (s : State) (p : Byte) :
    (s.patternChosen p).tgt = s.tgt := rfl
@[simp] theorem State.patternChosen_int (s : State) (p : Byte) :
    (s.patternChosen p).int = s.int := rfl
@[simp] theorem State.patternChosen_fc (s : State) (p : Byte) : (s.patternChosen p).fc = s.fc := rfl
@[simp] theorem State.patternChosen_pidx (s : State) (p : Byte) :
    (s.patternChosen p).pidx = p := rfl
@[simp] theorem State.patternChosen_fptr (s : State) (p : Byte) :
    (s.patternChosen p).fptr = s.fptr := rfl
@[simp] theorem State.patternChosen_cd (s : State) (p : Byte) :
    (s.patternChosen p).cd = s.cfg.cooldown := rfl
@[simp] theorem State.patternChosen_fp (s : State) (p : Byte) : (s.patternChosen p).fp = s.fp := rfl
@[simp] theorem State.patternChosen_nv (s : State) (p : Byte) : (s.patternChosen p).nv = s.nv := rfl
@[simp] theorem State.patternChosen_btn (s : State) (p : Byte) :
    (s.patternChosen p).btn = s.btn := rfl
@[simp] theorem State.patternChosen_nsamp (s : State) (p : Byte) :
    (s.patternChosen p).nsamp = s.nsamp := rfl
@[simp] theorem State.patternChosen_lat (s : State) (p : Byte) :
    (s.patternChosen p).lat = s.lat := rfl
@[simp] theorem State.patternChosen_timer (s : State) (p : Byte) :
    (s.patternChosen p).timer = s.timer := rfl

@[simp] theorem State.loaded_cfg (s : State) (i : Nat) (r : Record) :
    (s.loaded i r).cfg = s.cfg := rfl
@[simp] theorem State.loaded_cnt (s : State) (i : Nat) (r : Record) :
    (s.loaded i r).cnt = s.cnt := rfl
@[simp] theorem State.loaded_out (s : State) (i : Nat) (r : Record) :
    (s.loaded i r).out = s.out := rfl
@[simp] theorem State.loaded_tgt (s : State) (i : Nat) (r : Record) :
    (s.loaded i r).tgt = s.tgt := rfl
@[simp] theorem State.loaded_int (s : State) (i : Nat) (r : Record) :
    (s.loaded i r).int = r.init := rfl
@[simp] theorem State.loaded_fc (s : State) (i : Nat) (r : Record) :
    (s.loaded i r).fc = r.len := rfl
@[simp] theorem State.loaded_pidx (s : State) (i : Nat) (r : Record) :
    (s.loaded i r).pidx = s.pidx := rfl
@[simp] theorem State.loaded_fptr (s : State) (i : Nat) (r : Record) :
    (s.loaded i r).fptr = i := rfl
@[simp] theorem State.loaded_cd (s : State) (i : Nat) (r : Record) : (s.loaded i r).cd = s.cd := rfl
@[simp] theorem State.loaded_fp (s : State) (i : Nat) (r : Record) : (s.loaded i r).fp = s.fp := rfl
@[simp] theorem State.loaded_nv (s : State) (i : Nat) (r : Record) : (s.loaded i r).nv = s.nv := rfl
@[simp] theorem State.loaded_btn (s : State) (i : Nat) (r : Record) :
    (s.loaded i r).btn = s.btn := rfl
@[simp] theorem State.loaded_nsamp (s : State) (i : Nat) (r : Record) :
    (s.loaded i r).nsamp = s.nsamp := rfl
@[simp] theorem State.loaded_lat (s : State) (i : Nat) (r : Record) :
    (s.loaded i r).lat = s.lat := rfl
@[simp] theorem State.loaded_timer (s : State) (i : Nat) (r : Record) :
    (s.loaded i r).timer = s.timer := rfl

@[simp] theorem State.persisted_cfg (s : State) (p : Byte) : (s.persisted p).cfg = s.cfg := rfl
@[simp] theorem State.persisted_cnt (s : State) (p : Byte) : (s.persisted p).cnt = s.cnt := rfl
@[simp] theorem State.persisted_out (s : State) (p : Byte) : (s.persisted p).out = s.out := rfl
@[simp] theorem State.persisted_tgt (s : State) (p : Byte) : (s.persisted p).tgt = s.tgt := rfl
@[simp] theorem State.persisted_int (s : State) (p : Byte) : (s.persisted p).int = s.int := rfl
@[simp] theorem State.persisted_fc (s : State) (p : Byte) : (s.persisted p).fc = s.fc := rfl
@[simp] theorem State.persisted_pidx (s : State) (p : Byte) : (s.persisted p).pidx = s.pidx := rfl
@[simp] theorem State.persisted_fptr (s : State) (p : Byte) : (s.persisted p).fptr = s.fptr := rfl
@[simp] theorem State.persisted_cd (s : State) (p : Byte) : (s.persisted p).cd = s.cd := rfl
@[simp] theorem State.persisted_fp (s : State) (p : Byte) : (s.persisted p).fp = s.fp := rfl
@[simp] theorem State.persisted_nv (s : State) (p : Byte) :
    (s.persisted p).nv = if s.cfg.persist then Memory.write s.nv s.cfg.nvAddr p else s.nv := rfl
@[simp] theorem State.persisted_btn (s : State) (p : Byte) : (s.persisted p).btn = s.btn := rfl
@[simp] theorem State.persisted_nsamp (s : State) (p : Byte) :
    (s.persisted p).nsamp = s.nsamp := rfl
@[simp] theorem State.persisted_lat (s : State) (p : Byte) : (s.persisted p).lat = s.lat := rfl
@[simp] theorem State.persisted_timer (s : State) (p : Byte) :
    (s.persisted p).timer = s.timer := rfl

@[simp] theorem State.timerReloaded_cfg (s : State) : s.timerReloaded.cfg = s.cfg := rfl
@[simp] theorem State.timerReloaded_cnt (s : State) : s.timerReloaded.cnt = s.cnt := rfl
@[simp] theorem State.timerReloaded_out (s : State) : s.timerReloaded.out = s.out := rfl
@[simp] theorem State.timerReloaded_tgt (s : State) : s.timerReloaded.tgt = s.tgt := rfl
@[simp] theorem State.timerReloaded_int (s : State) : s.timerReloaded.int = s.int := rfl
@[simp] theorem State.timerReloaded_fc (s : State) : s.timerReloaded.fc = s.fc := rfl
@[simp] theorem State.timerReloaded_pidx (s : State) : s.timerReloaded.pidx = s.pidx := rfl
@[simp] theorem State.timerReloaded_fptr (s : State) : s.timerReloaded.fptr = s.fptr := rfl
@[simp] theorem State.timerReloaded_cd (s : State) : s.timerReloaded.cd = s.cd := rfl
@[simp] theorem State.timerReloaded_fp (s : State) : s.timerReloaded.fp = s.fp := rfl
@[simp] theorem State.timerReloaded_nv (s : State) : s.timerReloaded.nv = s.nv := rfl
@[simp] theorem State.timerReloaded_btn (s : State) : s.timerReloaded.btn = s.btn := rfl
@[simp] theorem State.timerReloaded_nsamp (s : State) : s.timerReloaded.nsamp = s.nsamp := rfl
@[simp] theorem State.timerReloaded_lat (s : State) : s.timerReloaded.lat = s.lat := rfl
@[simp] theorem State.timerReloaded_timer (s : State) :
    s.timerReloaded.timer = tmrReload s.cfg := rfl

@[simp] theorem State.portWritten_cfg (s : State) (b : Pair Level) :
    (s.portWritten b).cfg = s.cfg := rfl
@[simp] theorem State.portWritten_cnt (s : State) (b : Pair Level) :
    (s.portWritten b).cnt = s.cnt := rfl
@[simp] theorem State.portWritten_out (s : State) (b : Pair Level) :
    (s.portWritten b).out = b := rfl
@[simp] theorem State.portWritten_tgt (s : State) (b : Pair Level) :
    (s.portWritten b).tgt = s.tgt := rfl
@[simp] theorem State.portWritten_int (s : State) (b : Pair Level) :
    (s.portWritten b).int = s.int := rfl
@[simp] theorem State.portWritten_fc (s : State) (b : Pair Level) :
    (s.portWritten b).fc = s.fc := rfl
@[simp] theorem State.portWritten_pidx (s : State) (b : Pair Level) :
    (s.portWritten b).pidx = s.pidx := rfl
@[simp] theorem State.portWritten_fptr (s : State) (b : Pair Level) :
    (s.portWritten b).fptr = s.fptr := rfl
@[simp] theorem State.portWritten_cd (s : State) (b : Pair Level) :
    (s.portWritten b).cd = s.cd := rfl
@[simp] theorem State.portWritten_fp (s : State) (b : Pair Level) :
    (s.portWritten b).fp = s.fp := rfl
@[simp] theorem State.portWritten_nv (s : State) (b : Pair Level) :
    (s.portWritten b).nv = s.nv := rfl
@[simp] theorem State.portWritten_btn (s : State) (b : Pair Level) :
    (s.portWritten b).btn = s.btn := rfl
@[simp] theorem State.portWritten_nsamp (s : State) (b : Pair Level) :
    (s.portWritten b).nsamp = s.nsamp := rfl
@[simp] theorem State.portWritten_lat (s : State) (b : Pair Level) :
    (s.portWritten b).lat = s.lat := rfl
@[simp] theorem State.portWritten_timer (s : State) (b : Pair Level) :
    (s.portWritten b).timer = s.timer := rfl

@[simp] theorem State.counted_cfg (s : State) (c : Byte) : (s.counted c).cfg = s.cfg := rfl
@[simp] theorem State.counted_cnt (s : State) (c : Byte) : (s.counted c).cnt = c := rfl
@[simp] theorem State.counted_out (s : State) (c : Byte) : (s.counted c).out = s.out := rfl
@[simp] theorem State.counted_tgt (s : State) (c : Byte) : (s.counted c).tgt = s.tgt := rfl
@[simp] theorem State.counted_int (s : State) (c : Byte) : (s.counted c).int = s.int := rfl
@[simp] theorem State.counted_fc (s : State) (c : Byte) : (s.counted c).fc = s.fc := rfl
@[simp] theorem State.counted_pidx (s : State) (c : Byte) : (s.counted c).pidx = s.pidx := rfl
@[simp] theorem State.counted_fptr (s : State) (c : Byte) : (s.counted c).fptr = s.fptr := rfl
@[simp] theorem State.counted_cd (s : State) (c : Byte) : (s.counted c).cd = s.cd := rfl
@[simp] theorem State.counted_fp (s : State) (c : Byte) : (s.counted c).fp = s.fp := rfl
@[simp] theorem State.counted_nv (s : State) (c : Byte) : (s.counted c).nv = s.nv := rfl
@[simp] theorem State.counted_btn (s : State) (c : Byte) : (s.counted c).btn = s.btn := rfl
@[simp] theorem State.counted_nsamp (s : State) (c : Byte) : (s.counted c).nsamp = s.nsamp := rfl
@[simp] theorem State.counted_lat (s : State) (c : Byte) : (s.counted c).lat = s.lat := rfl
@[simp] theorem State.counted_timer (s : State) (c : Byte) : (s.counted c).timer = s.timer := rfl

@[simp] theorem publish_cfg (s : State) : (publish s).cfg = s.cfg := rfl
@[simp] theorem publish_cnt (s : State) : (publish s).cnt = s.cnt := rfl
@[simp] theorem publish_out (s : State) : (publish s).out = s.out := rfl
@[simp] theorem publish_tgt (s : State) : (publish s).tgt = s.int := rfl
@[simp] theorem publish_int (s : State) : (publish s).int = s.int := rfl
@[simp] theorem publish_fc (s : State) : (publish s).fc = s.fc := rfl
@[simp] theorem publish_pidx (s : State) : (publish s).pidx = s.pidx := rfl
@[simp] theorem publish_fptr (s : State) : (publish s).fptr = s.fptr := rfl
@[simp] theorem publish_cd (s : State) : (publish s).cd = s.cd := rfl
@[simp] theorem publish_fp (s : State) : (publish s).fp = false := rfl
@[simp] theorem publish_nv (s : State) : (publish s).nv = s.nv := rfl
@[simp] theorem publish_btn (s : State) : (publish s).btn = s.btn := rfl
@[simp] theorem publish_nsamp (s : State) : (publish s).nsamp = s.nsamp := rfl
@[simp] theorem publish_lat (s : State) : (publish s).lat = s.cfg.seqLat := rfl
@[simp] theorem publish_timer (s : State) : (publish s).timer = s.timer := rfl

@[simp] theorem State.rebooted_cfg (s : State) (b : Byte) : (s.rebooted b).cfg = s.cfg := rfl
@[simp] theorem State.rebooted_cnt (s : State) (b : Byte) : (s.rebooted b).cnt = s.cfg.limit := rfl
@[simp] theorem State.rebooted_out (s : State) (b : Byte) : (s.rebooted b).out = ⟨0#1, 0#1⟩ := rfl
@[simp] theorem State.rebooted_tgt (s : State) (b : Byte) : (s.rebooted b).tgt = ⟨0#8, 0#8⟩ := rfl
@[simp] theorem State.rebooted_int (s : State) (b : Byte) : (s.rebooted b).int = s.int := rfl
@[simp] theorem State.rebooted_fc (s : State) (b : Byte) : (s.rebooted b).fc = s.fc := rfl
@[simp] theorem State.rebooted_pidx (s : State) (b : Byte) : (s.rebooted b).pidx = b := rfl
@[simp] theorem State.rebooted_fptr (s : State) (b : Byte) : (s.rebooted b).fptr = s.fptr := rfl
@[simp] theorem State.rebooted_cd (s : State) (b : Byte) : (s.rebooted b).cd = 0#8 := rfl
@[simp] theorem State.rebooted_fp (s : State) (b : Byte) : (s.rebooted b).fp = true := rfl
@[simp] theorem State.rebooted_nv (s : State) (b : Byte) : (s.rebooted b).nv = s.nv := rfl
@[simp] theorem State.rebooted_btn (s : State) (b : Byte) : (s.rebooted b).btn = s.btn := rfl
@[simp] theorem State.rebooted_nsamp (s : State) (b : Byte) : (s.rebooted b).nsamp = s.nsamp := rfl
@[simp] theorem State.rebooted_lat (s : State) (b : Byte) : (s.rebooted b).lat = 0 := rfl
@[simp] theorem State.rebooted_timer (s : State) (b : Byte) :
    (s.rebooted b).timer = tmrReload s.cfg := rfl

@[simp] theorem quietSample_cfg (s : State) : (quietSample s).cfg = s.cfg := rfl
@[simp] theorem quietSample_cnt (s : State) : (quietSample s).cnt = s.cnt := rfl
@[simp] theorem quietSample_out (s : State) : (quietSample s).out = s.out := rfl
@[simp] theorem quietSample_tgt (s : State) : (quietSample s).tgt = s.tgt := rfl
@[simp] theorem quietSample_int (s : State) : (quietSample s).int = s.int := rfl
@[simp] theorem quietSample_fc (s : State) : (quietSample s).fc = s.fc := rfl
@[simp] theorem quietSample_pidx (s : State) : (quietSample s).pidx = s.pidx := rfl
@[simp] theorem quietSample_fptr (s : State) : (quietSample s).fptr = s.fptr := rfl
@[simp] theorem quietSample_cd (s : State) :
    (quietSample s).cd = if s.cd = 0#8 then 0#8 else s.cd - 1#8 := rfl
@[simp] theorem quietSample_fp (s : State) : (quietSample s).fp = s.fp := rfl
@[simp] theorem quietSample_nv (s : State) : (quietSample s).nv = s.nv := rfl
@[simp] theorem quietSample_btn (s : State) : (quietSample s).btn = s.btn.tail := rfl
@[simp] theorem quietSample_nsamp (s : State) : (quietSample s).nsamp = s.nsamp + 1 := rfl
@[simp] theorem quietSample_lat (s : State) : (quietSample s).lat = s.lat := rfl
@[simp] theorem quietSample_timer (s : State) : (quietSample s).timer = s.timer := rfl

end Sys2Proof.Machine
end

