-- ==== Sys2Proof/Laws/Ops.lean ====
section
/-! SUPPORT. One lemma per shared operation: everything it can do where it answers a next state. -/

namespace Sys2Proof.Machine

variable {α β γ : Type}

@[simp] theorem andThen_next (a : α) (f : α → Host.Outcome β Fault Refusal) :
    andThen (.next a) f = f a := rfl

@[simp] theorem andThen_refused (r : Refusal) (f : α → Host.Outcome β Fault Refusal) :
    andThen (.refused r) f = .refused r := rfl

theorem andThen_eq_next (o : Host.Outcome α Fault Refusal) (f : α → Host.Outcome β Fault Refusal) (b : β) :
    andThen o f = .next b ↔ ∃ a, o = .next a ∧ f a = .next b := by
  cases o <;> simp [andThen]

theorem andThen_assoc (o : Host.Outcome α Fault Refusal) (f : α → Host.Outcome β Fault Refusal)
    (g : β → Host.Outcome γ Fault Refusal) :
    andThen (andThen o f) g = andThen o (fun a => andThen (f a) g) := by
  cases o <;> rfl

theorem andThen_congr (o : Host.Outcome α Fault Refusal) {f g : α → Host.Outcome β Fault Refusal}
    (h : ∀ a, o = .next a → f a = g a) : andThen o f = andThen o g := by
  cases o with
  | next a => exact h a rfl
  | fault r => rfl
  | refused r => rfl

theorem load_of_some {i : Nat} {s : State} {r : Record} (h : readFrag s.cfg i = some r) :
    load i s = .next (s.loaded i r) := by
  simp [load, h]

theorem load_eq_next {i : Nat} {s t : State} :
    load i s = .next t ↔ ∃ r, readFrag s.cfg i = some r ∧ t = s.loaded i r := by
  unfold load
  cases readFrag s.cfg i <;> simp [eq_comm]

theorem changePattern_of_some {p : Byte} {i : Nat} {s : State} {r : Record}
    (h : readFrag s.cfg i = some r) :
    changePattern p i s = .next (((s.patternChosen p).loaded i r).persisted p) := by
  simp [changePattern, load, h]

theorem changePattern_eq_next {p : Byte} {i : Nat} {s t : State} :
    changePattern p i s = .next t ↔
      ∃ r, readFrag s.cfg i = some r ∧ t = ((s.patternChosen p).loaded i r).persisted p := by
  simp only [changePattern, andThen_eq_next, load_eq_next, State.patternChosen_cfg]
  constructor
  · rintro ⟨_, ⟨r, h, rfl⟩, h'⟩
    exact ⟨r, h, by simpa using h'.symm⟩
  · rintro ⟨r, h, rfl⟩
    exact ⟨_, ⟨r, h, rfl⟩, rfl⟩

/-! The store. -/

/-- An entry's address is above all that a canonical list's head allows. -/
theorem Memory.read_of_lt {m : Memory} {a : Nat} (h : ∀ c ∈ m, a < c.1) : Memory.read m a = unwritten := by
  induction m with
  | nil => rfl
  | cons c m ih =>
    have hc := h c (by simp)
    have hne : a ≠ c.1 := by omega
    simp [Memory.read, hne, ih (fun d hd => h d (by simp [hd]))]

theorem Memory.wf_cons {c : Host.Cell} {m : Memory} :
    Memory.wf (c :: m) = true ↔ c.2 ≠ unwritten ∧ (∀ d ∈ m, c.1 < d.1) ∧ Memory.wf m = true := by
  obtain ⟨b, x⟩ := c
  simp only [Memory.wf, Bool.and_eq_true, bne_iff_ne, ne_eq, List.all_eq_true, decide_eq_true_eq,
    and_assoc]

theorem Memory.read_cons (c : Host.Cell) (m : Memory) (a : Nat) :
    Memory.read (c :: m) a = if a = c.1 then c.2 else Memory.read m a := rfl

/-- A write adds no address but its own. -/
theorem Memory.mem_write {m : Memory} {a : Nat} {v : Byte} {c : Host.Cell} (h : c ∈ Memory.write m a v) :
    c = (a, v) ∨ c ∈ m := by
  induction m with
  | nil =>
    simp only [Memory.write] at h
    split at h <;> simp_all
  | cons d m ih =>
    obtain ⟨b, x⟩ := d
    simp only [Memory.write] at h
    split at h
    · split at h
      · exact .inr h
      · simpa using h
    · split at h
      · split at h
        · exact .inr (by simp [h])
        · rcases List.mem_cons.1 h with rfl | h
          · exact .inl rfl
          · exact .inr (by simp [h])
      · rcases List.mem_cons.1 h with rfl | h
        · exact .inr (by simp)
        · rcases ih h with h | h
          · exact .inl h
          · exact .inr (by simp [h])

/-- A write keeps the canonical form. -/
theorem Memory.wf_write {m : Memory} (h : Memory.wf m = true) (a : Nat) (v : Byte) :
    Memory.wf (Memory.write m a v) = true := by
  induction m with
  | nil =>
    unfold Memory.write
    split
    · rfl
    · rename_i hv
      simpa [Memory.wf] using hv
  | cons c m ih =>
    obtain ⟨b, x⟩ := c
    obtain ⟨hx, hb, hm⟩ := Memory.wf_cons.1 h
    unfold Memory.write
    split
    · rename_i hab
      split
      · exact h
      · rename_i hv
        refine Memory.wf_cons.2 ⟨hv, fun d hd => ?_, h⟩
        rcases List.mem_cons.1 hd with rfl | hd
        · exact hab
        · exact Nat.lt_trans hab (hb d hd)
    · split
      · rename_i hab
        subst hab
        split
        · exact hm
        · rename_i hv
          exact Memory.wf_cons.2 ⟨hv, hb, hm⟩
      · rename_i h1 h2
        refine Memory.wf_cons.2 ⟨hx, fun d hd => ?_, ih hm⟩
        rcases Memory.mem_write hd with rfl | hd
        · show b < a
          omega
        · exact hb d hd

/-- What a pattern change does to the store keeps the canonical form. -/
theorem Memory.wf_persisted {s : State} (h : Memory.wf s.nv = true) (p : Byte) :
    Memory.wf (s.persisted p).nv = true := by
  simp only [State.persisted_nv]
  split
  · exact Memory.wf_write h _ _
  · exact h

end Sys2Proof.Machine
end

