-- ==== Sys2Proof/Laws/Run.lean ====
section
/-! SUPPORT. What the selector, the sequencer and a whole run do, one lemma each; later proofs cite these
and unfold none of them. -/

namespace Sys2Proof.Machine

/-! Reads of the tables. -/

theorem readFrag_eq_some {c : Config} {i : Nat} {r : Record} :
    readFrag c i = some r ↔ ∃ w, c.frags[i]? = some w ∧ recordOfWord w = r := by
  simp [readFrag]

theorem readFrag_of_frags {c : Config} {i : Nat} {w : RecWord} (h : c.frags[i]? = some w) :
    readFrag c i = some (recordOfWord w) := by
  simp [readFrag, h]

/-! The selector. -/

/-- Everything the pressed branch can do: the next pattern `p` with its first fragment `i` is PIDX + 1 with
a PAT entry, or 0 with `Dir(0)` after ENDLIB; the rest is one pattern change (R143 to R145). -/
theorem selectNext_eq_next {s t : State} :
    selectNext s = .next t ↔ ∃ p i r, readFrag s.cfg i = some r ∧
      t = ((s.patternChosen p).loaded i r).persisted p ∧
      ∃ e, readDir s.cfg (s.pidx + 1#8).toNat = some e ∧
        ((e ≠ nullFrag s.cfg.fidxW ∧ p = s.pidx + 1#8 ∧ i = e) ∨
          (e = nullFrag s.cfg.fidxW ∧ p = 0#8 ∧ readDir s.cfg 0 = some i)) := by
  unfold selectNext execEndlib execPat
  cases hd : readDir s.cfg (s.pidx + 1#8).toNat with
  | none => simp
  | some e =>
    by_cases he : e = nullFrag s.cfg.fidxW
    · cases h0 : readDir s.cfg 0 with
      | none => simp [he]
      | some i =>
        simp only [he, if_true, changePattern_eq_next]
        constructor
        · rintro ⟨r, hr, rfl⟩
          exact ⟨0#8, i, r, hr, rfl, _, rfl, .inr ⟨rfl, rfl, rfl⟩⟩
        · rintro ⟨p, j, r, hr, rfl, e', h, ⟨h1, -, -⟩ | ⟨-, rfl, h3⟩⟩
          · exact absurd (Option.some.inj h).symm h1
          · obtain rfl := Option.some.inj h3
            exact ⟨r, hr, rfl⟩
    · simp only [he, if_false, changePattern_eq_next]
      constructor
      · rintro ⟨r, hr, rfl⟩
        exact ⟨_, e, r, hr, rfl, e, rfl, .inl ⟨he, rfl, rfl⟩⟩
      · rintro ⟨p, j, r, hr, rfl, e', h, ⟨-, rfl, rfl⟩ | ⟨h1, -, -⟩⟩
        · obtain rfl := Option.some.inj h
          exact ⟨r, hr, rfl⟩
        · exact absurd ((Option.some.inj h).trans h1) he

theorem changeDue_iff {s : State} : changeDue s = true ↔ s.cd = 0#8 ∧ buttonAt s 0 = 0#1 := by
  simp [changeDue, pressed]

/-- The two branches without a pattern change (R142, R148). -/
theorem debounce_quiet {s : State} (h : changeDue s = false) : debounce s = .next (false, quietSample s) := by
  unfold debounce
  by_cases hc : s.cd = 0#8
  · have hp : pressed (buttonAt s 0) = false := by simpa [changeDue, hc] using h
    simp [hc, hp, quietSample, State.sampleTaken]
  · simp [hc, quietSample, State.sampleTaken, State.cdDecremented]

/-- The pressed branch (R143). -/
theorem debounce_change {s : State} (h : changeDue s = true) :
    debounce s = andThen (selectNext s.sampleTaken) (fun t => .next (true, t)) := by
  obtain ⟨hc, hb⟩ := changeDue_iff.1 h
  simp [debounce, hc, hb, pressed]

/-! The steps of a run. -/

@[simp] theorem rampStep_cd (f : Record) (s : State) : (rampStep f s).cd = s.cd := by
  unfold rampStep; split <;> rfl

@[simp] theorem buttonAt_rampStep (f : Record) (s : State) (j : Nat) :
    buttonAt (rampStep f s) j = buttonAt s j := by
  unfold rampStep; split <;> rfl

@[simp] theorem changeDue_rampStep (f : Record) (s : State) : changeDue (rampStep f s) = changeDue s := by
  simp [changeDue]

/-- A run without a pattern change is steps 2 and 4 to 7 (R114). -/
theorem seqRun_quiet {f : Record} {s : State} (h : changeDue s = false) :
    seqRun f s = countFrame f (quietSample (rampStep f s)) := by
  simp [seqRun, debounce_quiet (s := rampStep f s) (by simpa using h)]

/-- A run with a pattern change is step 2 and the pressed branch, and nothing after it (R114, R147). -/
theorem seqRun_change {f : Record} {s : State} (h : changeDue s = true) :
    seqRun f s = selectNext (rampStep f s).sampleTaken := by
  simp only [seqRun, debounce_change (s := rampStep f s) (by simpa using h), andThen_assoc, andThen_next,
    if_true]
  cases selectNext (rampStep f s).sampleTaken <;> rfl

/-- Everything steps 6 and 7 can do: some record is loaded, the next one or the pattern's first (R117, R118). -/
theorem advance_eq_next {s t : State} :
    advance s = .next t ↔ ∃ r, readFrag s.cfg (nextFrag s) = some r ∧
      ((r.len ≠ endLen ∧ t = s.loaded (nextFrag s) r) ∨
        (r.len = endLen ∧ ∃ i q, readDir s.cfg s.pidx.toNat = some i ∧ readFrag s.cfg i = some q ∧
          t = s.loaded i q)) := by
  unfold advance execEndMark
  cases hr : readFrag s.cfg (nextFrag s) with
  | none => simp
  | some r =>
    by_cases he : r.len = endLen
    · cases hd : readDir s.cfg s.pidx.toNat <;> simp [he, load_eq_next]
    · simp [he, load_eq_next, hr]

/-! The meanings. -/

@[simp] theorem exec_ramp (n i0 s0 i1 s1 : Byte) (s : State) :
    exec (.ramp n i0 s0 i1 s1) s = seqRun ⟨n, ⟨i0, i1⟩, ⟨s0, s1⟩⟩ s := rfl

@[simp] theorem exec_hold (i0 s0 i1 s1 : Byte) (s : State) :
    exec (.hold i0 s0 i1 s1) s = seqRun ⟨0#8, ⟨i0, i1⟩, ⟨s0, s1⟩⟩ s := rfl

/-- Whatever its kind, the current record runs as its fields say (R111). -/
theorem exec_asCurrent (r : Record) (s : State) : exec (asCurrent (instrOfRecord r)) s = seqRun r s := by
  unfold instrOfRecord
  split
  · rename_i h
    simp [asCurrent, ← h]
  · split
    · rename_i h
      simp [asCurrent, ← h]
    · simp [asCurrent]

/-- SEQ_STEP over the record FPTR names (R111). -/
theorem seqStep_of_some {s : State} {r : Record} (h : readFrag s.cfg s.fptr = some r) :
    seqStep s = andThen (seqRun r s) (fun t => .next t.setPending) := by
  obtain ⟨w, hw, rfl⟩ := readFrag_eq_some.1 h
  simp [seqStep, hw, decodeRecord, exec_asCurrent]

theorem seqStep_eq_next {s t : State} :
    seqStep s = .next t ↔ ∃ r u, readFrag s.cfg s.fptr = some r ∧ seqRun r s = .next u ∧ t = u.setPending := by
  cases hw : s.cfg.frags[s.fptr]? with
  | none => simp [seqStep, hw, readFrag]
  | some w =>
    rw [seqStep_of_some (readFrag_of_frags hw), andThen_eq_next]
    simp [readFrag_of_frags hw, eq_comm]

/-- Everything a run can do to the state, once for all later proofs: a pattern change; or, without one, a
frame counted; or a fragment loaded after FC reached 0. -/
theorem seqRun_cases {f : Record} {s t : State} (h : seqRun f s = .next t) :
    (changeDue s = true ∧ selectNext (rampStep f s).sampleTaken = .next t) ∨
    (changeDue s = false ∧ (s.fc - 1#8 ≠ 0#8 ∨ f.len = 0#8) ∧
      t = (quietSample (rampStep f s)).fcDecremented) ∨
    (changeDue s = false ∧ s.fc - 1#8 = 0#8 ∧ f.len ≠ 0#8 ∧
      advance (quietSample (rampStep f s)).fcDecremented = .next t) := by
  have hfc : (rampStep f s).fc = s.fc := by unfold rampStep; split <;> rfl
  cases hc : changeDue s with
  | true => exact .inl ⟨rfl, by rwa [seqRun_change hc] at h⟩
  | false =>
    rw [seqRun_quiet hc, countFrame] at h
    split at h
    · rename_i hz
      exact .inr (.inr ⟨rfl, by simpa [hfc] using hz.1, hz.2, h⟩)
    · rename_i hz
      refine .inr (.inl ⟨rfl, ?_, by simpa using h.symm⟩)
      by_cases hf : s.fc - 1#8 = 0#8
      · exact .inr (Classical.not_not.1 fun hl => hz ⟨by simpa [hfc] using hf, hl⟩)
      · exact .inl hf

end Sys2Proof.Machine
end

