-- ==== Sys2Proof/Laws/Library.lean ====
section
/-! SUPPORT. What the checks of the configuration say of the tables, and the reads they make safe. -/

namespace Sys2Proof.Machine

/-- Below NPAT the directory holds PAT entries, and reads give them. -/
theorem readDir_below {c : Config} {n p : Nat} (h : npat c = some n) (hp : p < n) :
    ∃ d, c.dir[p]? = some d ∧ d ≠ nullFrag c.fidxW ∧ readDir c p = some d := by
  obtain ⟨hl, h1, h2⟩ := List.findIdx?_eq_some_iff_getElem.1 h
  have h3 := h2 p hp
  refine ⟨c.dir[p], by simp [List.getElem?_eq_getElem (Nat.lt_trans hp hl)], by simpa using h3, ?_⟩
  simp [readDir, h, Nat.le_of_lt hp, List.getElem?_eq_getElem (Nat.lt_trans hp hl)]

/-- At NPAT stands the sentinel. -/
theorem readDir_at {c : Config} {n : Nat} (h : npat c = some n) :
    c.dir[n]? = some (nullFrag c.fidxW) ∧ readDir c n = some (nullFrag c.fidxW) := by
  obtain ⟨hl, h1, -⟩ := List.findIdx?_eq_some_iff_getElem.1 h
  have : c.dir[n]? = some (nullFrag c.fidxW) := by
    rw [List.getElem?_eq_getElem hl]
    simpa using h1
  exact ⟨this, by simp [readDir, h, this]⟩

/-- NPAT is the index of the first sentinel (R2, R77). -/
theorem npat_eq_some {c : Config} {n : Nat} :
    npat c = some n ↔ c.dir[n]? = some (nullFrag c.fidxW) ∧
      ∀ p, p < n → ∃ d, c.dir[p]? = some d ∧ d ≠ nullFrag c.fidxW := by
  constructor
  · intro h
    exact ⟨(readDir_at h).1, fun p hp => by
      obtain ⟨d, h1, h2, -⟩ := readDir_below h hp
      exact ⟨d, h1, h2⟩⟩
  · rintro ⟨h1, h2⟩
    obtain ⟨hl, h1'⟩ := List.getElem?_eq_some_iff.1 h1
    refine List.findIdx?_eq_some_iff_getElem.2 ⟨hl, by simp [h1'], fun j hj => ?_⟩
    obtain ⟨d, hd, hn⟩ := h2 j hj
    obtain ⟨_, hd'⟩ := List.getElem?_eq_some_iff.1 hd
    simpa [hd'] using hn

/-- W3 on the records from some index on (R78). -/
theorem closes_iff (ws : List RecWord) : closes ws = true ↔ ∃ t : Nat,
    (∀ j, j < t → ∃ w, ws[j]? = some w ∧ isRamp (recordOfWord w)) ∧
    ∃ w, ws[t]? = some w ∧ ((recordOfWord w).len = 0#8 ∨ (recordOfWord w).len = endLen) := by
  induction ws with
  | nil => simp [closes]
  | cons w ws ih =>
    unfold closes
    by_cases h0 : (recordOfWord w).len = 0#8
    · simp only [h0, if_true, true_iff]
      exact ⟨0, by omega, w, rfl, .inl h0⟩
    · by_cases h1 : (recordOfWord w).len = endLen
      · simp only [h1, if_true, ite_self, true_iff]
        exact ⟨0, by omega, w, rfl, .inr h1⟩
      · simp only [h0, h1, if_false, ih]
        constructor
        · rintro ⟨t, ht, hw⟩
          refine ⟨t + 1, fun j hj => ?_, by simpa using hw⟩
          cases j with
          | zero => exact ⟨w, rfl, h0, h1⟩
          | succ j => simpa using ht j (by omega)
        · rintro ⟨t, ht, w', hw, hh⟩
          cases t with
          | zero =>
            obtain rfl : w = w' := by simpa using hw
            rcases hh with hh | hh <;> contradiction
          | succ t =>
            exact ⟨t, fun j hj => by simpa using ht (j + 1) (by omega), w', by simpa using hw, hh⟩

theorem startsReal_iff {c : Config} {d : Nat} :
    startsReal c d = true ↔ ∃ r, readFrag c d = some r ∧ r.len ≠ endLen := by
  unfold startsReal
  cases readFrag c d <;> simp

/-- W2, W3 and W4 of one pattern (R78). -/
theorem patternWf_iff {c : Config} {d : Nat} : patternWf c d = true ↔
    (∃ r, readFrag c d = some r ∧ r.len ≠ endLen) ∧
    ∃ t, d ≤ t ∧ (∀ j, d ≤ j → j < t → ∃ r, readFrag c j = some r ∧ isRamp r) ∧
      ∃ r, readFrag c t = some r ∧ (r.len = 0#8 ∨ r.len = endLen) := by
  unfold patternWf
  rw [Bool.and_eq_true, closes_iff, startsReal_iff]
  refine and_congr_right fun _ => ?_
  constructor
  · rintro ⟨t, ht, w, hw, hh⟩
    refine ⟨d + t, by omega, fun j h1 h2 => ?_, recordOfWord w, ?_, hh⟩
    · obtain ⟨w', hw', hr⟩ := ht (j - d) (by omega)
      refine ⟨_, readFrag_of_frags (w := w') ?_, hr⟩
      simpa [show d + (j - d) = j by omega] using hw'
    · exact readFrag_of_frags (by simpa using hw)
  · rintro ⟨t, hdt, ht, r, hr, hh⟩
    obtain ⟨w, hw, rfl⟩ := readFrag_eq_some.1 hr
    refine ⟨t - d, fun j hj => ?_, w, by simpa [show d + (t - d) = t by omega] using hw, hh⟩
    obtain ⟨r, hr, hi⟩ := ht (d + j) (by omega) (by omega)
    obtain ⟨w', hw', rfl⟩ := readFrag_eq_some.1 hr
    exact ⟨w', by simpa using hw', hi⟩

theorem libraryWf_iff {c : Config} : libraryWf c = true ↔ ∃ n, npat c = some n ∧ 1 ≤ n ∧ n ≤ 255 ∧
    (∀ p d, p < n → c.dir[p]? = some d → patternWf c d = true) ∧ c.frags.length ≤ nullFrag c.fidxW := by
  unfold libraryWf
  cases hn : npat c with
  | none => simp
  | some n =>
    simp only [Bool.and_eq_true, decide_eq_true_eq, List.all_eq_true, Option.some.injEq,
      exists_eq_left', and_assoc]
    refine and_congr_right fun _ => and_congr_right fun _ => and_congr_left fun _ => ?_
    constructor
    · intro h p d hp hd
      refine h d (List.mem_iff_getElem?.2 ⟨p, ?_⟩)
      simp [hp, hd]
    · intro h d hd
      obtain ⟨p, hp⟩ := List.mem_iff_getElem?.1 hd
      rw [List.getElem?_take] at hp
      split at hp
      · exact h p d (by assumption) hp
      · cases hp

/-- What a well-formed configuration gives every proof: NPAT, its bounds, the store's bound, and for every
pattern index a first fragment whose pattern is well-formed. -/
theorem configWf_library {c : Config} (h : configWf c = true) : ∃ n, npat c = some n ∧ 1 ≤ n ∧ n ≤ 255 ∧
    c.frags.length ≤ nullFrag c.fidxW ∧
    ∀ p, p < n → ∃ d, readDir c p = some d ∧ patternWf c d = true ∧ d ≠ nullFrag c.fidxW := by
  simp only [configWf, Bool.and_eq_true] at h
  obtain ⟨n, hn, h1, h2, hp, hl⟩ := libraryWf_iff.1 h.2
  refine ⟨n, hn, h1, h2, hl, fun p hpn => ?_⟩
  obtain ⟨d, hd, hne, hr⟩ := readDir_below hn hpn
  exact ⟨d, hr, hp p d hpn hd, hne⟩

/-- What it gives of the parameters (R2). -/
theorem configWf_params {c : Config} (h : configWf c = true) : c.limit ≠ 0#8 ∧ 1 ≤ c.limit.toNat ∧
    1 ≤ c.fidxW ∧ c.seqLat < c.limit.toNat := by
  simp only [configWf, paramsWf, Bool.and_eq_true, bne_iff_ne, ne_eq, decide_eq_true_eq] at h
  obtain ⟨⟨⟨⟨⟨h1, h2⟩, h3⟩, -⟩, -⟩, -⟩ := h
  exact ⟨h1, by omega, h2, by omega⟩

/-- A record exists only below the store's length, so below NULL_FRAG (R75). -/
theorem readFrag_lt {c : Config} {i : Nat} {r : Record} (h : readFrag c i = some r) :
    i < c.frags.length := by
  obtain ⟨w, hw, -⟩ := readFrag_eq_some.1 h
  exact (List.getElem?_eq_some_iff.1 hw).1

/-- RESET's index names a pattern (R212). -/
theorem bootIndex_lt {s : State} {n : Nat} (hn : npat s.cfg = some n) (h1 : 1 ≤ n) :
    (bootIndex s).toNat < n := by
  unfold bootIndex
  simp only [hn]
  generalize (if s.cfg.persist then Memory.read s.nv s.cfg.nvAddr else 0#8) = b
  split
  · assumption
  · exact h1

end Sys2Proof.Machine
end

