-- ==== Sys2Proof/Laws/Modulator.lean ====
section
/-! SUPPORT. What a TICK does, field by field. -/

namespace Sys2Proof.Machine

theorem atBoundary_iff {s : State} : atBoundary s = true ↔ s.cnt = 1#8 := by
  unfold atBoundary
  constructor
  · intro h
    have h' : s.cnt - 1#8 = 0#8 := by simpa using h
    exact BitVec.sub_eq_iff_eq_add.1 h' |>.trans (by decide)
  · intro h
    simp [h]

/-- An ordinary TICK (R94). -/
theorem tick_ordinary {s : State} (h : atBoundary s = false) :
    tick s = ((s.timerReloaded).portWritten (outBits s)).counted (s.cnt - 1#8) := by
  simp [tick, h]

/-- A boundary TICK (R94). -/
theorem tick_boundary {s : State} (h : atBoundary s = true) :
    tick s = frameBoundary (((s.timerReloaded).portWritten (outBits s)).counted s.cfg.limit) := by
  simp [tick, h]

@[simp] theorem frameBoundary_cfg (s : State) : (frameBoundary s).cfg = s.cfg := by
  unfold frameBoundary; split <;> rfl
@[simp] theorem frameBoundary_cnt (s : State) : (frameBoundary s).cnt = s.cnt := by
  unfold frameBoundary; split <;> rfl
@[simp] theorem frameBoundary_out (s : State) : (frameBoundary s).out = s.out := by
  unfold frameBoundary; split <;> rfl
@[simp] theorem frameBoundary_tgt (s : State) :
    (frameBoundary s).tgt = if s.fp then s.int else s.tgt := by
  unfold frameBoundary; split <;> rfl
@[simp] theorem frameBoundary_fp (s : State) : (frameBoundary s).fp = false := by
  unfold frameBoundary; split <;> simp_all
@[simp] theorem frameBoundary_lat (s : State) :
    (frameBoundary s).lat = if s.fp then s.cfg.seqLat else s.lat := by
  unfold frameBoundary; split <;> rfl

@[simp] theorem frameBoundary_int (s : State) : (frameBoundary s).int = s.int := by
  unfold frameBoundary; split <;> rfl
@[simp] theorem frameBoundary_fc (s : State) : (frameBoundary s).fc = s.fc := by
  unfold frameBoundary; split <;> rfl
@[simp] theorem frameBoundary_pidx (s : State) : (frameBoundary s).pidx = s.pidx := by
  unfold frameBoundary; split <;> rfl
@[simp] theorem frameBoundary_fptr (s : State) : (frameBoundary s).fptr = s.fptr := by
  unfold frameBoundary; split <;> rfl
@[simp] theorem frameBoundary_cd (s : State) : (frameBoundary s).cd = s.cd := by
  unfold frameBoundary; split <;> rfl
@[simp] theorem frameBoundary_nv (s : State) : (frameBoundary s).nv = s.nv := by
  unfold frameBoundary; split <;> rfl
@[simp] theorem frameBoundary_btn (s : State) : (frameBoundary s).btn = s.btn := by
  unfold frameBoundary; split <;> rfl
@[simp] theorem frameBoundary_nsamp (s : State) : (frameBoundary s).nsamp = s.nsamp := by
  unfold frameBoundary; split <;> rfl
@[simp] theorem frameBoundary_timer (s : State) : (frameBoundary s).timer = s.timer := by
  unfold frameBoundary; split <;> rfl

/-- The pins and the timer are written by every TICK (R92, R99). -/
@[simp] theorem tick_out (s : State) : (tick s).out = outBits s := by
  cases h : atBoundary s <;> simp [tick_ordinary, tick_boundary, h]

/-- `a >u b` (R4). -/
theorem gtU_eq_one {a b : Byte} : gtU a b = 1#1 ↔ b.toNat < a.toNat := by
  unfold gtU; split <;> simp_all

theorem gtU_toNat (a b : Byte) : (gtU a b).toNat = if b.toNat < a.toNat then 1 else 0 := by
  unfold gtU; split <;> rfl

/-- Channel c's pin after a TICK (R91). -/
theorem tick_out_get (s : State) (c : Channel) : (tick s).out.get c = gtU (s.tgt.get c) s.cnt := by
  rw [tick_out]; cases c <;> rfl

theorem tick_cnt (s : State) :
    (tick s).cnt = if s.cnt = 1#8 then s.cfg.limit else s.cnt - 1#8 := by
  cases h : atBoundary s with
  | false => simp [tick_ordinary h, show s.cnt ≠ 1#8 from fun e => by simp [atBoundary_iff.2 e] at h]
  | true => simp [tick_boundary h, atBoundary_iff.1 h]

theorem tick_tgt (s : State) :
    (tick s).tgt = if s.cnt = 1#8 ∧ s.fp = true then s.int else s.tgt := by
  cases h : atBoundary s with
  | false => simp [tick_ordinary h, show s.cnt ≠ 1#8 from fun e => by simp [atBoundary_iff.2 e] at h]
  | true => cases hf : s.fp <;> simp [tick_boundary h, atBoundary_iff.1 h, hf]

theorem tick_fp (s : State) : (tick s).fp = if s.cnt = 1#8 then false else s.fp := by
  cases h : atBoundary s with
  | false => simp [tick_ordinary h, show s.cnt ≠ 1#8 from fun e => by simp [atBoundary_iff.2 e] at h]
  | true => simp [tick_boundary h, atBoundary_iff.1 h]

theorem tick_lat (s : State) :
    (tick s).lat = if s.cnt = 1#8 ∧ s.fp = true then s.cfg.seqLat else s.lat := by
  cases h : atBoundary s with
  | false => simp [tick_ordinary h, show s.cnt ≠ 1#8 from fun e => by simp [atBoundary_iff.2 e] at h]
  | true => cases hf : s.fp <;> simp [tick_boundary h, atBoundary_iff.1 h, hf]

/-! The cells of the frame context, which no TICK writes (R34). -/

@[simp] theorem tick_cfg (s : State) : (tick s).cfg = s.cfg := by
  cases h : atBoundary s <;> simp [tick_ordinary, tick_boundary, h]
@[simp] theorem tick_int (s : State) : (tick s).int = s.int := by
  cases h : atBoundary s <;> simp [tick_ordinary, tick_boundary, h]
@[simp] theorem tick_fc (s : State) : (tick s).fc = s.fc := by
  cases h : atBoundary s <;> simp [tick_ordinary, tick_boundary, h]
@[simp] theorem tick_pidx (s : State) : (tick s).pidx = s.pidx := by
  cases h : atBoundary s <;> simp [tick_ordinary, tick_boundary, h]
@[simp] theorem tick_fptr (s : State) : (tick s).fptr = s.fptr := by
  cases h : atBoundary s <;> simp [tick_ordinary, tick_boundary, h]
@[simp] theorem tick_cd (s : State) : (tick s).cd = s.cd := by
  cases h : atBoundary s <;> simp [tick_ordinary, tick_boundary, h]
@[simp] theorem tick_nv (s : State) : (tick s).nv = s.nv := by
  cases h : atBoundary s <;> simp [tick_ordinary, tick_boundary, h]
@[simp] theorem tick_btn (s : State) : (tick s).btn = s.btn := by
  cases h : atBoundary s <;> simp [tick_ordinary, tick_boundary, h]
@[simp] theorem tick_nsamp (s : State) : (tick s).nsamp = s.nsamp := by
  cases h : atBoundary s <;> simp [tick_ordinary, tick_boundary, h]
@[simp] theorem tick_timer (s : State) : (tick s).timer = tmrReload s.cfg := by
  cases h : atBoundary s <;> simp [tick_ordinary, tick_boundary, h]

end Sys2Proof.Machine
end

