-- ==== Sys2Proof/Laws/PerInstr.lean ====
section
/-! SUPPORT. One fact about every instruction as syntax, constructor by constructor: what a well-formed
instruction is stored as. -/

namespace Sys2Proof.Laws.StoredForm

/-- A well-formed instruction is stored in its own table: RAMP, HOLD and END as a record whose first byte is
in the kind's range (R74), PAT and ENDLIB as a number of FIDX_W bits (R75). -/
def Statement (i : Instr) : Prop :=
  ∀ fidxW : Nat, i.wf fidxW = true →
    match i with
    | .ramp len _ _ _ _ => ∃ w, encode fidxW i = .record w ∧ (recordOfWord w).len = len ∧
        1 ≤ len.toNat ∧ len.toNat ≤ 254
    | .hold _ _ _ _ => ∃ w, encode fidxW i = .record w ∧ (recordOfWord w).len.toNat = 0
    | .endMark _ _ _ _ => ∃ w, encode fidxW i = .record w ∧ (recordOfWord w).len.toNat = 255
    | .pat _ => ∃ e, encode fidxW i = .entry e ∧ e + 1 < 2 ^ fidxW
    | .endlib => ∃ e, encode fidxW i = .entry e ∧ e + 1 = 2 ^ fidxW

theorem ramp (len init0 inc0 init1 inc1 : Byte) : Statement (.ramp len init0 inc0 init1 inc1) := by
  intro fidxW h
  obtain ⟨h0, h1⟩ : len ≠ 0#8 ∧ len ≠ 255#8 := by simpa [Instr.wf] using h
  have n0 : len.toNat ≠ 0 := fun e => h0 (BitVec.eq_of_toNat_eq (by simpa using e))
  have n1 : len.toNat ≠ 255 := fun e => h1 (BitVec.eq_of_toNat_eq (by simpa using e))
  have hlt := len.isLt
  exact ⟨_, rfl, by simp, by omega, by omega⟩

theorem hold (init0 inc0 init1 inc1 : Byte) : Statement (.hold init0 inc0 init1 inc1) :=
  fun _ _ => ⟨_, rfl, by simp⟩

theorem endMark (init0 inc0 init1 inc1 : Byte) : Statement (.endMark init0 inc0 init1 inc1) :=
  fun _ _ => ⟨_, rfl, by simp [endLen]⟩

theorem pat (first : Nat) : Statement (.pat first) := by
  intro fidxW h
  have h2 : first < 2 ^ fidxW - 1 := by
    simp only [Instr.wf, Bool.and_eq_true, decide_eq_true_eq] at h
    exact h.2
  exact ⟨_, rfl, by omega⟩

theorem endlib : Statement .endlib :=
  fun fidxW _ => ⟨_, rfl, Nat.succ_pred_eq_of_pos (Nat.two_pow_pos fidxW)⟩

end Sys2Proof.Laws.StoredForm
end

