-- ==== Sys2Proof/Laws/Step.lean ====
section
/-! SUPPORT. What a whole run and a step leave, once for all later proofs. -/

namespace Sys2Proof.Machine

/-- What every run leaves: the tick context's cells and the parameters (R34). -/
structure SameTickSide (s t : State) : Prop where
  cfg : t.cfg = s.cfg
  cnt : t.cnt = s.cnt
  out : t.out = s.out
  tgt : t.tgt = s.tgt
  lat : t.lat = s.lat
  timer : t.timer = s.timer

theorem rampStep_same (f : Record) (s : State) : SameTickSide s (rampStep f s) := by
  unfold rampStep; split <;> exact ⟨rfl, rfl, rfl, rfl, rfl, rfl⟩

@[simp] theorem rampStep_cfg (f : Record) (s : State) : (rampStep f s).cfg = s.cfg := (rampStep_same f s).cfg
@[simp] theorem rampStep_pidx (f : Record) (s : State) : (rampStep f s).pidx = s.pidx := by
  unfold rampStep; split <;> rfl
@[simp] theorem rampStep_fptr (f : Record) (s : State) : (rampStep f s).fptr = s.fptr := by
  unfold rampStep; split <;> rfl
@[simp] theorem rampStep_fc (f : Record) (s : State) : (rampStep f s).fc = s.fc := by
  unfold rampStep; split <;> rfl
@[simp] theorem rampStep_nv (f : Record) (s : State) : (rampStep f s).nv = s.nv := by
  unfold rampStep; split <;> rfl
@[simp] theorem rampStep_btn (f : Record) (s : State) : (rampStep f s).btn = s.btn := by
  unfold rampStep; split <;> rfl
@[simp] theorem rampStep_nsamp (f : Record) (s : State) : (rampStep f s).nsamp = s.nsamp := by
  unfold rampStep; split <;> rfl
@[simp] theorem rampStep_fp (f : Record) (s : State) : (rampStep f s).fp = s.fp := by
  unfold rampStep; split <;> rfl

theorem selectNext_same {s t : State} (h : selectNext s = .next t) : SameTickSide s t := by
  obtain ⟨p, i, r, -, rfl, -⟩ := selectNext_eq_next.1 h
  exact ⟨rfl, rfl, rfl, rfl, rfl, rfl⟩

theorem advance_same {s t : State} (h : advance s = .next t) : SameTickSide s t := by
  obtain ⟨r, -, ⟨-, rfl⟩ | ⟨-, i, q, -, -, rfl⟩⟩ := advance_eq_next.1 h <;>
    exact ⟨rfl, rfl, rfl, rfl, rfl, rfl⟩

/-- A run leaves the tick context's cells (R34). -/
theorem seqRun_same {f : Record} {s t : State} (h : seqRun f s = .next t) : SameTickSide s t := by
  have hr := rampStep_same f s
  have lift : ∀ u : State, SameTickSide (rampStep f s) u → SameTickSide s u := fun u hu =>
    ⟨hu.cfg.trans hr.cfg, hu.cnt.trans hr.cnt, hu.out.trans hr.out, hu.tgt.trans hr.tgt,
      hu.lat.trans hr.lat, hu.timer.trans hr.timer⟩
  rcases seqRun_cases h with ⟨-, h⟩ | ⟨-, -, rfl⟩ | ⟨-, -, -, h⟩
  · have := selectNext_same h
    exact lift _ ⟨this.cfg, this.cnt, this.out, this.tgt, this.lat, this.timer⟩
  · exact lift _ ⟨rfl, rfl, rfl, rfl, rfl, rfl⟩
  · have := advance_same h
    exact lift _ ⟨this.cfg, this.cnt, this.out, this.tgt, this.lat, this.timer⟩

theorem seqStep_same {s t : State} (h : seqStep s = .next t) : SameTickSide s t := by
  obtain ⟨r, u, -, hu, rfl⟩ := seqStep_eq_next.1 h
  have := seqRun_same hu
  exact ⟨this.cfg, this.cnt, this.out, this.tgt, this.lat, this.timer⟩

/-- The last action of a run sets FP (R163). -/
theorem seqStep_fp {s t : State} (h : seqStep s = .next t) : t.fp = true := by
  obtain ⟨r, u, -, -, rfl⟩ := seqStep_eq_next.1 h
  rfl

/-- The two operations a step can be (R60). -/
theorem step_eq_next {s t : State} :
    step s = .next t ↔ configWf s.cfg = true ∧
      ((runDue s = true ∧ seqStep s = .next t) ∨ (runDue s = false ∧ t = tickStep s)) := by
  unfold step
  cases configWf s.cfg <;> cases runDue s <;> simp [eq_comm]

theorem step_run {s : State} (hw : configWf s.cfg = true) (h : runDue s = true) : step s = seqStep s := by
  simp [step, hw, h]

theorem step_tick {s : State} (hw : configWf s.cfg = true) (h : runDue s = false) :
    step s = .next (tickStep s) := by
  simp [step, hw, h]

theorem runDue_iff {s : State} : runDue s = true ↔ s.fp = false ∧ s.lat = 0 := by
  simp [runDue]

end Sys2Proof.Machine
end

