-- ==== Sys2Proof/Laws/Window.lean ====
section
/-! SUPPORT. Several ticks, runs or steps in a row, and the samples a run leaves to the next one. -/

namespace Sys2Proof.Machine

theorem ticks_add (m n : Nat) (s : State) : ticks (m + n) s = ticks n (ticks m s) := by
  induction m generalizing s with
  | zero => simp [ticks]
  | succ m ih => rw [Nat.succ_add]; simp [ticks, ih]

/-- The last of `n + 1` ticks, for inductions over the number of ticks. -/
theorem ticks_succ (n : Nat) (s : State) : ticks (n + 1) s = tick (ticks n s) := ticks_add n 1 s

@[simp] theorem ticks_cfg (n : Nat) (s : State) : (ticks n s).cfg = s.cfg := by
  induction n with
  | zero => rfl
  | succ n ih => rw [ticks_succ, tick_cfg, ih]

theorem runs_add (m n : Nat) (s : State) : runs (m + n) s = andThen (runs m s) (runs n) := by
  induction m generalizing s with
  | zero => simp [runs]
  | succ m ih =>
    rw [Nat.succ_add]
    simp only [runs, andThen_assoc]
    exact andThen_congr _ fun a _ => ih a

theorem steps_add (m n : Nat) (s : State) : steps (m + n) s = andThen (steps m s) (steps n) := by
  induction m generalizing s with
  | zero => simp [steps]
  | succ m ih =>
    rw [Nat.succ_add]
    simp only [steps, andThen_assoc]
    exact andThen_congr _ fun a _ => ih a

/-- After one sample has gone by, the j-th coming sample is the one that was number j + 1. -/
theorem buttonAt_next {s t : State} (h1 : t.btn = s.btn.tail) (h2 : t.nsamp = s.nsamp + 1) (j : Nat) :
    buttonAt t j = buttonAt s (j + 1) := by
  simp only [buttonAt, h1, h2, List.getElem?_tail]
  congr 2
  omega

/-- The cooldown counts down to 0 and stays there where no pattern change is made (R142, R148). -/
theorem quietSample_cd_toNat (s : State) : (quietSample s).cd.toNat = s.cd.toNat - 1 := by
  by_cases h : s.cd = 0#8
  · simp [quietSample, h]
  · have hne : s.cd.toNat ≠ 0 := fun e => h (BitVec.eq_of_toNat_eq (by simpa using e))
    have hlt := s.cd.isLt
    simp only [quietSample, h, if_false, BitVec.toNat_sub]
    simp
    omega

/-- The first of several quiet runs makes no pattern change. -/
theorem changeDue_of_quiet {k : Nat} {s : State} (h : quiet (k + 1) s) : changeDue s = false := by
  rcases h 0 (by omega) with h | h
  · have hne : s.cd ≠ 0#8 := fun e => by simp [e] at h
    simp [changeDue, hne]
  · simp [changeDue, h, pressed]

/-- What a quiet run leaves is quiet for the runs that remain. -/
theorem quiet_next {k : Nat} {s t : State} (h : quiet (k + 1) s) (h1 : t.btn = s.btn.tail)
    (h2 : t.nsamp = s.nsamp + 1) (h3 : t.cd = (quietSample s).cd) : quiet k t := by
  intro j hj
  rw [buttonAt_next h1 h2, h3, quietSample_cd_toNat]
  exact (h (j + 1) (by omega)).imp (fun h => by omega) id

end Sys2Proof.Machine
end

