-- ==== Sys2Proof/Tests/Slice0.lean ====
section
/-! SUPPORT. Tests whose expected values are those of `spec/95_test_vectors.md` (named in each docstring) or
worked out by hand from a rule; and for every obligation with hypotheses a state that meets them. -/

namespace Sys2Proof.Tests

open Sys2Proof.Machine

/-! Helpers. -/

/-- What a field holds in the next state, where there is one. -/
def after {α : Type} (o : Host.Outcome State Fault Refusal) (f : State → α) : Option α :=
  match o with
  | .next t => some (f t)
  | .fault _ => none
  | .refused _ => none

/-- RAMP 16, (0, +8), (128, -8); END; HOLD (64), (0), the example library of R81's section. -/
def exampleFrags : List RecWord := [0x10000880F8#40, 0xFF00000000#40, 0x0040000000#40]

/-- The parameters of V-SEL-1 to V-SEL-4: L = 64, COOLDOWN = 60, PERSIST, DIR = 00 02 FF. -/
def exampleCfg : Config := { Config.atReset with frags := exampleFrags, dir := [0, 2, 255] }

/-- The example library with the given tables and L. -/
def cfgOf (limit : Byte) (frags : List RecWord) (dir : List Nat) : Config :=
  { exampleCfg with limit := limit, frags := frags, dir := dir }

/-- A state in which a run is due, the button giving the samples `btn`. -/
def due (c : Config) (pidx : Byte) (fptr : Nat) (fc cd i0 i1 : Byte) (btn : List Level) : State :=
  { State.reset with
    cfg := c, cnt := c.limit, pidx := pidx, fptr := fptr, fc := fc, cd := cd, int := ⟨i0, i1⟩,
    fp := false, btn := btn }

/-- A state of the tick context alone. -/
def ticking (limit cnt t0 t1 : Byte) (fp : Bool) : State :=
  { State.reset with cfg := cfgOf limit exampleFrags [0, 2, 255], cnt := cnt, tgt := ⟨t0, t1⟩, fp := fp }

/-- The cells of the tick context that the vectors show. -/
structure Shown where
  out : Pair Level
  cnt : Byte
  tgt : Pair Byte
  deriving DecidableEq

/-- The two pins, the count and the two targets. -/
def shown (s : State) : Shown := ⟨s.out, s.cnt, s.tgt⟩

/-- The cells of the frame context, and the store. -/
structure Cells where
  pidx : Byte
  fptr : Nat
  fc : Byte
  cd : Byte
  int : Pair Byte
  nv : Memory
  deriving DecidableEq

/-- PIDX, FPTR, FC, CD, INT and NV. -/
def cells (s : State) : Cells := ⟨s.pidx, s.fptr, s.fc, s.cd, s.int, s.nv⟩

/-! WellFormed: each check refuses an ill-formed term and lets its neighbour pass. -/

theorem test_wf_ramp_len_zero :
    (Instr.ramp 0#8 1#8 2#8 3#8 4#8).wf 8 = false ∧ (Instr.ramp 1#8 1#8 2#8 3#8 4#8).wf 8 = true := by decide

theorem test_wf_ramp_len_255 :
    (Instr.ramp 255#8 1#8 2#8 3#8 4#8).wf 8 = false ∧ (Instr.ramp 254#8 1#8 2#8 3#8 4#8).wf 8 = true := by
  decide

theorem test_wf_pat_bound :
    (Instr.pat 255).wf 8 = false ∧ (Instr.pat 254).wf 8 = true ∧ (Instr.pat 255).wf 9 = true := by decide

theorem test_wf_index_width :
    (Instr.pat 0).wf 0 = false ∧ Instr.endlib.wf 0 = false ∧ Instr.endlib.wf 1 = true := by decide

/-! Decoding: words written out bit by bit from R70, R74 and R75. -/

/-- RAMP 16, (0, +8), (128, -8): V-ENC-1. -/
theorem test_decode_ramp :
    decode 8 (.record 0b0001000000000000000010001000000011111000#40) =
      .ok (.ramp 16#8 0#8 8#8 128#8 248#8) := by decide

/-- RAMP 2, (10, +1), (20, +2): five different bytes, so no two fields are swapped (V-ENC-1). -/
theorem test_decode_ramp_fields :
    decode 8 (.record 0b0000001000001010000000010001010000000010#40) =
      .ok (.ramp 2#8 10#8 1#8 20#8 2#8) := by decide

/-- `00 1E 05 28 FB`: HOLD with ignored bytes (V-ENC-1). -/
theorem test_decode_hold :
    decode 8 (.record 0b0000000000011110000001010010100011111011#40) =
      .ok (.hold 30#8 5#8 40#8 251#8) := by decide

/-- `FF 11 22 33 44`: END with ignored bytes (V-ENC-1). -/
theorem test_decode_end :
    decode 8 (.record 0b1111111100010001001000100011001101000100#40) =
      .ok (.endMark 0x11#8 0x22#8 0x33#8 0x44#8) := by decide

/-- `00 02 FF` are PAT 0, PAT 2, ENDLIB (V-ENC-4); 256 does not fit eight bits (R75). -/
theorem test_decode_entries :
    decode 8 (.entry 0b00000000) = .ok (.pat 0) ∧ decode 8 (.entry 0b00000010) = .ok (.pat 2) ∧
    decode 8 (.entry 0b11111111) = .ok .endlib ∧
    decode 8 (.entry 0b100000000) = .error .entryTooWide := by decide

/-- A record is five bytes (R70): four and six are refused. -/
theorem test_decode_bytes :
    decodeBytes [0x02#8, 0x0A#8, 0x01#8, 0x14#8, 0x02#8] = .ok (.ramp 2#8 10#8 1#8 20#8 2#8) ∧
    decodeBytes [0x02#8, 0x0A#8, 0x01#8, 0x14#8] = .error .notFiveBytes ∧
    decodeBytes [0x02#8, 0x0A#8, 0x01#8, 0x14#8, 0x02#8, 0x00#8] = .error .notFiveBytes := by decide

/-- The opcode table's own examples. -/
theorem test_decode_table_words :
    decodeTableWord 40 0x10000880F8 = some (.ramp 16#8 0#8 8#8 128#8 248#8) ∧
    decodeTableWord 40 0x0040000000 = some (.hold 64#8 0#8 0#8 0#8) ∧
    decodeTableWord 40 0xFF00000000 = some (.endMark 0#8 0#8 0#8 0#8) ∧
    decodeTableWord 8 0x02 = some (.pat 2) ∧ decodeTableWord 8 0xFF = some .endlib ∧
    decodeTableWord 16 0x02 = none := by decide

/-- The words of `withFetchWord` run in the very next step: by R113 and R115, R120, R117 and R126, R143. -/
theorem test_fetch_word_runs :
    after (step (State.reset.withFetchWord 40 0x10000880F8)) cells = some ⟨0#8, 0, 15#8, 0#8, ⟨8#8, 120#8⟩, []⟩ ∧
    after (step (State.reset.withFetchWord 40 0x0040000000)) cells = some ⟨0#8, 0, 255#8, 0#8, ⟨64#8, 0#8⟩, []⟩ ∧
    after (step (State.reset.withFetchWord 40 0xFF00000000)) cells = some ⟨0#8, 0, 1#8, 0#8, ⟨0#8, 0#8⟩, []⟩ ∧
    after (step (State.reset.withFetchWord 8 0x02)) cells =
      some ⟨1#8, 2, 0#8, 60#8, ⟨0#8, 0#8⟩, [(0, 1#8)]⟩ ∧
    after (step (State.reset.withFetchWord 8 0xFF)) cells =
      some ⟨0#8, 0, 0#8, 60#8, ⟨0#8, 0#8⟩, [(0, 0#8)]⟩ := by decide

/-! The library check: the rows of V-ENC-5. -/

theorem test_library_accepts :
    libraryWf (cfgOf 64#8 exampleFrags [0, 2, 255]) = true ∧
    libraryWf (cfgOf 64#8 [0x0040000000#40] [0, 255]) = true ∧
    libraryWf (cfgOf 64#8 [0x0107000700#40, 0x0203010401#40, 0xFF00000000#40] [0, 1, 255]) = true ∧
    libraryWf (cfgOf 64#8 [0x0107000700#40, 0x0040000000#40, 0x0203010401#40] [0, 255]) = true := by decide

theorem test_library_refuses :
    libraryWf (cfgOf 64#8 exampleFrags [255]) = false ∧
    libraryWf (cfgOf 64#8 exampleFrags [0, 1]) = false ∧
    libraryWf (cfgOf 64#8 [0x0107000700#40, 0xFF00000000#40] [5, 255]) = false ∧
    libraryWf (cfgOf 64#8 [0x0107000700#40] [0, 255]) = false ∧
    libraryWf (cfgOf 64#8 [0x0107000700#40, 0xFF00000000#40, 0x0107000700#40] [0, 2, 255]) = false ∧
    libraryWf (cfgOf 64#8 [0xFF00000000#40] [0, 255]) = false ∧
    libraryWf (cfgOf 64#8 [0x0107000700#40, 0xFF00000000#40] [0, 1, 255]) = false := by decide

/-- R2's bounds on L, SEQ_LAT, FIDX_W and TMR_COUNTS_PER_TICK, each just inside and just outside. -/
theorem test_parameters :
    paramsWf { exampleCfg with limit := 0#8 } = false ∧
    paramsWf { exampleCfg with limit := 1#8 } = true ∧
    paramsWf { exampleCfg with seqLat := 63 } = true ∧ paramsWf { exampleCfg with seqLat := 64 } = false ∧
    paramsWf { exampleCfg with fidxW := 0 } = false ∧
    paramsWf { exampleCfg with tmrCountsPerTick := 0 } = false ∧
    paramsWf { exampleCfg with tmrCountsPerTick := 256 } = true ∧
    paramsWf { exampleCfg with tmrCountsPerTick := 257 } = false := by decide

/-! The modulator and the handoff. -/

/-- V-MOD-1: rows 1, 2, 4, 7, 8 and 9. -/
theorem test_tick :
    shown (tick (ticking 64#8 64#8 64#8 65#8 false)) = ⟨⟨0#1, 1#1⟩, 63#8, ⟨64#8, 65#8⟩⟩ ∧
    shown (tick (ticking 64#8 10#8 10#8 11#8 false)) = ⟨⟨0#1, 1#1⟩, 9#8, ⟨10#8, 11#8⟩⟩ ∧
    shown (tick (ticking 64#8 1#8 1#8 2#8 false)) = ⟨⟨0#1, 1#1⟩, 64#8, ⟨1#8, 2#8⟩⟩ ∧
    shown (tick (ticking 1#8 1#8 1#8 2#8 false)) = ⟨⟨0#1, 1#1⟩, 1#8, ⟨1#8, 2#8⟩⟩ ∧
    shown (tick (ticking 255#8 255#8 255#8 255#8 false)) = ⟨⟨0#1, 0#1⟩, 254#8, ⟨255#8, 255#8⟩⟩ ∧
    shown (tick (ticking 64#8 0#8 0#8 1#8 true)) = ⟨⟨0#1, 1#1⟩, 255#8, ⟨0#8, 1#8⟩⟩ := by decide

/-- V-HO-2: the boundary tick writes the pins from the old targets, then publishes. -/
theorem test_publish_after_port_write :
    shown (tick { ticking 4#8 1#8 3#8 2#8 true with int := ⟨1#8, 4#8⟩ }) =
      ⟨⟨1#1, 1#1⟩, 4#8, ⟨1#8, 4#8⟩⟩ ∧
    (tick { ticking 4#8 1#8 3#8 2#8 true with int := ⟨1#8, 4#8⟩ }).fp = false := by decide

/-- V-HO-5: a boundary with FP = 0 changes no target. -/
theorem test_overrun_keeps_targets :
    shown (tick { ticking 4#8 1#8 3#8 2#8 false with int := ⟨9#8, 9#8⟩ }) =
      ⟨⟨1#1, 1#1⟩, 4#8, ⟨3#8, 2#8⟩⟩ := by decide

/-- V-MOD-7. -/
theorem test_timer_constant :
    tmrReload exampleCfg = 160#8 ∧ State.reset.timer = 160#8 ∧
    tmrReload { exampleCfg with tmrCountsPerTick := 250, irqLatencyCounts := 10 } = 16#8 ∧
    tmrReload { exampleCfg with tmrCountsPerTick := 256, irqLatencyCounts := 0 } = 0#8 ∧
    tmrReload { exampleCfg with tmrCountsPerTick := 200, irqLatencyCounts := 0 } = 56#8 := by decide

/-! The record kinds. -/

/-- V-RAMP-1. -/
theorem test_ramp_ordinary :
    after (step (due exampleCfg 0#8 0 16#8 0#8 0#8 128#8 [1#1])) cells =
      some ⟨0#8, 0, 15#8, 0#8, ⟨8#8, 120#8⟩, []⟩ := by decide

/-- V-RAMP-4: both bytes wrap; V-SEL-1's cooldown beside it. -/
theorem test_ramp_wraps :
    after (step (due (cfgOf 64#8 [0x03FA0803FE#40, 0xFF00000000#40] [0, 255]) 0#8 0 3#8 3#8 250#8 3#8
      [0#1])) cells = some ⟨0#8, 0, 2#8, 2#8, ⟨2#8, 1#8⟩, []⟩ := by decide

/-- V-HOLD-2 with the FC of V-HOLD-1: the `inc` bytes are ignored, and FC goes from 0 to 255. -/
theorem test_hold_ignores_increments :
    after (step (due (cfgOf 64#8 [0x001E0528FB#40] [0, 255]) 0#8 0 0#8 0#8 30#8 40#8 [1#1])) cells =
      some ⟨0#8, 0, 255#8, 0#8, ⟨30#8, 40#8⟩, []⟩ := by decide

/-- V-HOLD-3: FC passes 0 and nothing is loaded. -/
theorem test_hold_at_zero :
    after (step (due (cfgOf 64#8 [0x0040000000#40] [0, 255]) 0#8 0 1#8 0#8 64#8 0#8 [1#1])) cells =
      some ⟨0#8, 0, 0#8, 0#8, ⟨64#8, 0#8⟩, []⟩ := by decide

/-- V-RAMP-2: the successor is END, and the pattern's first fragment is loaded. -/
theorem test_end_wraps :
    after (step (due exampleCfg 0#8 0 1#8 0#8 120#8 8#8 [1#1])) cells =
      some ⟨0#8, 0, 16#8, 0#8, ⟨0#8, 128#8⟩, []⟩ := by decide

/-- V-END-2: the bytes of END are never read. -/
theorem test_end_bytes_ignored :
    after (step (due (cfgOf 64#8 [0x0105000600#40, 0xFF11223344#40] [0, 255]) 0#8 0 1#8 0#8 5#8 6#8
      [1#1])) cells = some ⟨0#8, 0, 1#8, 0#8, ⟨5#8, 6#8⟩, []⟩ := by decide

/-! The directory entries. -/

/-- V-SEL-2: the pattern changes, FC is not counted down, NV holds 1. -/
theorem test_pat :
    after (step (due exampleCfg 0#8 0 10#8 0#8 48#8 80#8 [0#1])) cells =
      some ⟨1#8, 2, 0#8, 60#8, ⟨64#8, 0#8⟩, [(0, 1#8)]⟩ := by decide

/-- V-SEL-3: past the last pattern the index is 0 again, and NV holds 0. -/
theorem test_endlib :
    after (step (due exampleCfg 1#8 2 200#8 0#8 64#8 0#8 [0#1])) cells =
      some ⟨0#8, 0, 16#8, 60#8, ⟨0#8, 128#8⟩, [(0, 0#8)]⟩ := by decide

/-! RESET. -/

/-- V-RST-2 and V-RST-4: the persisted pattern, and an index out of range. -/
theorem test_power_on :
    after (powerOn { State.reset with cfg := exampleCfg, nv := [(0, 1#8)] }) cells =
      some ⟨1#8, 2, 0#8, 0#8, ⟨64#8, 0#8⟩, [(0, 1#8)]⟩ ∧
    after (powerOn { State.reset with cfg := exampleCfg, nv := [] }) cells =
      some ⟨0#8, 0, 16#8, 0#8, ⟨0#8, 128#8⟩, []⟩ := by decide

/-! For every obligation with hypotheses: a concrete state and operands that meet all of them together, one
for each clause, at a boundary of its range. -/

/-- The example library at L = 4. -/
def cfg4 : Config := cfgOf 4#8 exampleFrags [0, 2, 255]

/-- A state over it, in pattern 0's first fragment as RESET leaves it but for CNT and FP. -/
def at4 (cnt : Byte) (fp : Bool) (btn : List Level) : State :=
  { State.reset with
    cfg := cfg4, cnt := cnt, fc := 16#8, int := ⟨0#8, 128#8⟩, fp := fp,
    btn := btn }

/-- Record 0 of the example library. -/
def rec0 : Record := ⟨16#8, ⟨0#8, 128#8⟩, ⟨8#8, 248#8⟩⟩

/-- Record 2 of the example library, HOLD (64), (0). -/
def rec2 : Record := ⟨0#8, ⟨64#8, 0#8⟩, ⟨0#8, 0#8⟩⟩

theorem configWf_at4 (cnt : Byte) (fp : Bool) (btn : List Level) : configWf (at4 cnt fp btn).cfg = true :=
  (by decide : configWf cfg4 = true)

theorem position_at4 (cnt : Byte) (fp : Bool) (btn : List Level) : positionOk (at4 cnt fp btn) :=
  ⟨2, 0, (by decide : npat cfg4 = some 2), Nat.zero_lt_two, (by decide : readDir cfg4 0 = some 0),
    Nat.le_refl _, fun j h1 h2 => absurd h2 (Nat.not_lt.2 h1), rec0,
    (by decide : readFrag cfg4 0 = some rec0), by decide⟩

theorem frameCount_at4 (cnt : Byte) (fp : Bool) (btn : List Level) : frameCountOk (at4 cnt fp btn) := by
  intro r hr _
  obtain rfl : rec0 = r := Option.some.inj (Eq.trans (by decide : some rec0 = readFrag cfg4 0) hr)
  exact (by decide : 1 ≤ (16#8).toNat ∧ (16#8).toNat ≤ rec0.len.toNat)

theorem inv_at4 (cnt : Byte) (fp : Bool) (btn : List Level) (h1 : 1 ≤ cnt.toNat) (h2 : cnt.toNat ≤ 4) :
    Inv (at4 cnt fp btn) where
  cntPos := h1
  cntLimit := h2
  cdLimit := Nat.zero_le _
  nvCanonical := rfl
  idle := fun _ => rfl
  inTime := fun _ => h1
  timerConst := (by decide : 160#8 = tmrReload cfg4)
  position := fun _ => position_at4 cnt fp btn
  frameCount := fun _ => frameCount_at4 cnt fp btn

theorem witness_RecordKindByLenAlone : ∃ a b c d : Byte, a = 0#8 ∧ b = 255#8 ∧ (c ≠ 0#8 ∧ c ≠ 255#8) ∧
    (d ≠ 0#8 ∧ d ≠ 255#8) ∧ c = 1#8 ∧ d = 254#8 :=
  ⟨0#8, 255#8, 1#8, 254#8, by decide⟩

theorem witness_EntryKindByValue :
    (255 : Nat) = 2 ^ 8 - 1 ∧ 254 < 2 ^ 8 - 1 ∧ 2 ^ 8 ≤ 256 ∧ (0 : Nat) = 2 ^ 0 - 1 ∧ 2 ^ 0 ≤ 1 := by decide

theorem witness_DecodeOfEncode : (Instr.ramp 1#8 0#8 0#8 0#8 0#8).wf 8 = true ∧
    (Instr.ramp 254#8 9#8 8#8 7#8 6#8).wf 8 = true ∧ (Instr.hold 9#8 8#8 7#8 6#8).wf 8 = true ∧
    (Instr.endMark 9#8 8#8 7#8 6#8).wf 8 = true ∧ (Instr.pat 254).wf 8 = true ∧
    Instr.endlib.wf 1 = true := by decide

theorem witness_EncodeOfDecode :
    1 ≤ 8 ∧ decode 8 (.record 0xFF11223344#40) = .ok (.endMark 0x11#8 0x22#8 0x33#8 0x44#8) ∧
    decode 8 (.entry 254) = .ok (.pat 254) ∧ decode 1 (.entry 1) = .ok .endlib := by decide

theorem witness_IllFormedConfigurationRefused : configWf State.reset.cfg = false := by decide

theorem witness_ConfigurationIsConstant :
    (∃ t, step (at4 4#8 true []) = .next t) ∧ ∃ t, step (at4 4#8 false [1#1]) = .next t :=
  ⟨⟨_, rfl⟩, ⟨_, rfl⟩⟩

/-- One persisted index that is the last valid one, one that is the first invalid one, and no PERSIST. -/
theorem witness_PowerOnCells : configWf exampleCfg = true ∧ npat exampleCfg = some 2 ∧
    exampleCfg.persist = true ∧ (Memory.read [(0, 1#8)] exampleCfg.nvAddr).toNat < 2 ∧
    2 ≤ (Memory.read [(0, 2#8)] exampleCfg.nvAddr).toNat ∧
    configWf { exampleCfg with persist := false } = true := by decide

theorem witness_BadPersistedIndexBootsZero : ∃ s : State, ∃ n, configWf s.cfg = true ∧
    s.cfg.persist = true ∧ npat s.cfg = some n ∧ n ≤ (Memory.read s.nv s.cfg.nvAddr).toNat ∧
    Memory.read [(0, 0#8)] s.cfg.nvAddr = 0#8 :=
  ⟨{ at4 4#8 true [] with nv := [(0, 2#8)] }, 2, by decide⟩

theorem witness_PersistedIndexRoundTrip : ∃ s : State, ∃ n, configWf s.cfg = true ∧ s.cfg.persist = true ∧
    npat s.cfg = some n ∧ s.pidx.toNat < n ∧ Memory.wf s.nv = true ∧ changeDue s = true ∧
    ∃ r, readFrag s.cfg s.fptr = some r :=
  ⟨at4 4#8 false [0#1], 2, by decide, by decide, by decide, by decide, by decide, by decide, rec0,
    by decide⟩

theorem witness_FirstWindowIsDark :
    (∃ u, powerOn (at4 1#8 false []) = .next u) ∧ 0 < (at4 1#8 false []).cfg.limit.toNat ∧
    3 < (at4 1#8 false []).cfg.limit.toNat := ⟨⟨_, rfl⟩, by decide, by decide⟩

theorem witness_PinsCompareTargetWithCount :
    (ticking 4#8 4#8 5#8 4#8 true).cnt.toNat < ((ticking 4#8 4#8 5#8 4#8 true).tgt.get .ch0).toNat ∧
    ((ticking 4#8 4#8 5#8 4#8 true).tgt.get .ch1).toNat ≤ (ticking 4#8 4#8 5#8 4#8 true).cnt.toNat ∧
    ∃ t, seqStep (at4 4#8 false [1#1]) = .next t := ⟨by decide, by decide, ⟨_, rfl⟩⟩

theorem witness_CounterReloadsAtZero : (at4 1#8 true []).cnt - 1#8 = 0#8 ∧ (at4 1#8 true []).fp = true ∧
    (at4 2#8 true []).cnt - 1#8 ≠ 0#8 := by decide

theorem witness_TickResult : (at4 2#8 true []).cnt ≠ 1#8 ∧
    ((at4 1#8 true []).cnt = 1#8 ∧ (at4 1#8 true []).fp = true) ∧
    (at4 1#8 false []).cnt = 1#8 ∧ (at4 1#8 false []).fp = false := by decide

theorem witness_CountdownFromAnyCount : 0 < (at4 255#8 true []).cnt.toNat ∧
    254 < (at4 255#8 true []).cnt.toNat ∧ (at4 255#8 true []).cnt ≠ 0#8 ∧ (at4 0#8 true []).cnt = 0#8 := by
  decide

theorem witness_CounterSequence : (at4 4#8 true []).cnt = (at4 4#8 true []).cfg.limit ∧
    (at4 4#8 true []).cnt ≠ 0#8 := by decide

theorem witness_HighTicksPerWindow : (ticking 255#8 255#8 255#8 0#8 true).cnt = 255#8 ∧
    (ticking 255#8 255#8 255#8 0#8 true).cfg.limit = 255#8 ∧
    (ticking 255#8 255#8 255#8 0#8 true).cnt ≠ 0#8 := by decide

theorem witness_HighTicksAreTheLast : (at4 4#8 true []).cnt = (at4 4#8 true []).cfg.limit ∧
    (1 ≤ 1 ∧ 1 ≤ (at4 4#8 true []).cfg.limit.toNat) ∧ 1 ≤ 4 ∧ 4 ≤ (at4 4#8 true []).cfg.limit.toNat := by
  decide

theorem witness_TimerReloadConstant :
    ({ at4 4#8 true [] with cfg := { exampleCfg with tmrCountsPerTick := 256 } }).cfg.tmrCountsPerTick ≤ 256 := by
  decide

theorem witness_TargetsChangeOnlyAtABoundary :
    ∃ t, step (at4 1#8 true []) = .next t ∧ t.tgt ≠ (at4 1#8 true []).tgt := ⟨_, rfl, by decide⟩

theorem witness_PendingFlagHasTwoWriters :
    (∃ t, step (at4 1#8 true []) = .next t ∧ (at4 1#8 true []).fp = true ∧ t.fp = false) ∧
    ∃ t, step (at4 4#8 false [1#1]) = .next t ∧ (at4 4#8 false [1#1]).fp = false ∧ t.fp = true :=
  ⟨⟨_, rfl, by decide, by decide⟩, ⟨_, rfl, by decide, by decide⟩⟩

/-- Two states that differ in every cell of the frame context. -/
theorem witness_PinsIgnoreTheFrameContext : ∃ s u : State, s ≠ u ∧ s.cnt = u.cnt ∧ s.tgt = u.tgt ∧
    s.cfg.limit = u.cfg.limit ∧ (1 ≤ 1 ∧ 1 ≤ s.cnt.toNat) ∧ 1 ≤ 4 ∧ 4 ≤ s.cnt.toNat :=
  ⟨at4 4#8 true [], due (cfgOf 4#8 exampleFrags [0, 2, 255]) 1#8 2 9#8 5#8 7#8 7#8 [0#1], by decide⟩

theorem witness_PublishedAtTheNextBoundary : configWf (at4 4#8 true []).cfg = true ∧
    (at4 4#8 true []).fp = true ∧ (at4 4#8 true []).cnt ≠ 0#8 ∧ 0 < (at4 4#8 true []).cnt.toNat ∧
    3 < (at4 4#8 true []).cnt.toNat := by decide

/-- The earliest and the latest instant of the run. -/
theorem witness_FrameDoesNotDependOnLatency : configWf (at4 4#8 false [1#1]).cfg = true ∧
    (at4 4#8 false [1#1]).fp = false ∧ (at4 4#8 false [1#1]).cnt = (at4 4#8 false [1#1]).cfg.limit ∧
    (at4 4#8 false [1#1]).lat < (at4 4#8 false [1#1]).cfg.limit.toNat ∧
    ({ at4 4#8 false [1#1] with lat := 3 }).lat < (at4 4#8 false [1#1]).cfg.limit.toNat := by decide

theorem witness_RunCompletesBeforeTheBoundary : Inv (at4 1#8 false [1#1]) ∧
    configWf (at4 1#8 false [1#1]).cfg = true ∧ (at4 1#8 false [1#1]).fp = false :=
  ⟨inv_at4 _ _ _ (by decide) (by decide), by decide, by decide⟩

theorem witness_NoOverrun : Inv (at4 1#8 true []) ∧ (∃ t, step (at4 1#8 true []) = .next t) ∧
    runDue (at4 1#8 true []) = false ∧ (at4 1#8 true []).cnt = 1#8 :=
  ⟨inv_at4 _ _ _ (by decide) (by decide), ⟨_, rfl⟩, by decide, by decide⟩

/-- A RAMP that is current, an END that is current, FP = 1, and a run that is not yet due. -/
theorem witness_StepPerformsOneOperation :
    (∃ s : State, ∃ w, configWf s.cfg = true ∧ s.fp = false ∧ s.lat = 0 ∧ s.cfg.frags[s.fptr]? = some w ∧
      (recordOfWord w).len ≠ 255#8) ∧
    (∃ s : State, ∃ w a b c d, configWf s.cfg = true ∧ s.fp = false ∧ s.lat = 0 ∧
      s.cfg.frags[s.fptr]? = some w ∧ decodeRecord w = .endMark a b c d) ∧
    (configWf (at4 4#8 true []).cfg = true ∧ (at4 4#8 true []).fp = true) ∧
    ∃ s : State, configWf s.cfg = true ∧ s.lat ≠ 0 ∧ s.fp = false :=
  ⟨⟨at4 4#8 false [], 0x10000880F8#40, by decide⟩,
    ⟨{ at4 4#8 false [] with fptr := 1 }, 0xFF00000000#40, 0#8, 0#8, 0#8, 0#8, by decide⟩, by decide,
    ⟨{ at4 4#8 false [] with lat := 1 }, by decide⟩⟩

theorem witness_RunReachesEndAndDirectory :
    (∃ (n : Byte) (w : RecWord) (s : State), n ≠ 0#8 ∧ changeDue s = false ∧ s.fc = 1#8 ∧
      s.cfg.frags[(s.fptr + 1) % 2 ^ s.cfg.fidxW]? = some w ∧ (recordOfWord w).len = 255#8) ∧
    (∃ (n : Byte) (s : State), n ≠ 0#8 ∧ changeDue s = true ∧
      readDir s.cfg (s.pidx + 1#8).toNat = some 2 ∧ decodeEntry s.cfg.fidxW 2 = .ok (.pat 2)) ∧
    ∃ (n : Byte) (s : State), n ≠ 0#8 ∧ changeDue s = true ∧
      readDir s.cfg (s.pidx + 1#8).toNat = some 255 ∧ decodeEntry s.cfg.fidxW 255 = .ok .endlib :=
  ⟨⟨16#8, 0xFF00000000#40, { at4 4#8 false [1#1] with fc := 1#8 }, by decide⟩,
    ⟨16#8, at4 4#8 false [0#1], by decide⟩, ⟨16#8, { at4 4#8 false [0#1] with pidx := 1#8 }, by decide⟩⟩

theorem witness_RampAddsAndCounts : (Instr.ramp 254#8 0#8 8#8 0#8 8#8).wf 8 = true ∧
    changeDue (at4 4#8 false [1#1]) = false ∧ (at4 4#8 false [1#1]).fc ≠ 1#8 ∧
    ({ at4 4#8 false [1#1] with fc := 2#8 }).fc ≠ 1#8 := by decide

/-- Before a HOLD, and before END. -/
theorem witness_FragmentEndLoadsTheNext :
    (∃ (n : Byte) (q r : Record) (d : Nat) (s : State), n ≠ 0#8 ∧ changeDue s = false ∧ s.fc = 1#8 ∧
      readFrag s.cfg ((s.fptr + 1) % 2 ^ s.cfg.fidxW) = some q ∧ q.len ≠ 255#8 ∧
      d = (s.fptr + 1) % 2 ^ s.cfg.fidxW ∧ readFrag s.cfg d = some r) ∧
    ∃ (n : Byte) (q r : Record) (d : Nat) (s : State), n ≠ 0#8 ∧ changeDue s = false ∧ s.fc = 1#8 ∧
      readFrag s.cfg ((s.fptr + 1) % 2 ^ s.cfg.fidxW) = some q ∧ q.len = 255#8 ∧
      readDir s.cfg s.pidx.toNat = some d ∧ readFrag s.cfg d = some r :=
  ⟨⟨2#8, rec2, rec2, 1, due (cfgOf 4#8 [0x0200000000#40, 0x0040000000#40] [0, 255]) 0#8 0 1#8 0#8 0#8 0#8
      [1#1], by decide⟩,
    ⟨16#8, ⟨255#8, ⟨0#8, 0#8⟩, ⟨0#8, 0#8⟩⟩, rec0, 0, { at4 4#8 false [1#1] with fc := 1#8 }, by decide⟩⟩

theorem witness_HoldOnlyCounts : changeDue (at4 4#8 false [1#1]) = false ∧
    changeDue { at4 4#8 false [0#1] with cd := 1#8 } = false := by decide

theorem witness_EndLoadsThePatternStart : ∃ (d : Nat) (r : Record) (s : State),
    readDir s.cfg s.pidx.toNat = some d ∧ readFrag s.cfg d = some r :=
  ⟨2, rec2, { at4 4#8 false [] with pidx := 1#8 }, by decide⟩

theorem witness_PatChangesToTheNextPattern : readFrag (at4 4#8 false []).cfg 2 = some rec2 := by decide

theorem witness_EndlibChangesToPatternZero : readDir (at4 4#8 false []).cfg 0 = some 0 ∧
    readFrag (at4 4#8 false []).cfg 0 = some rec0 := by decide

theorem witness_RunFrame :
    (∃ t, exec (.ramp 16#8 0#8 8#8 128#8 248#8) (at4 4#8 false [0#1]) = .next t) ∧
    (∃ t, exec (.hold 64#8 0#8 0#8 0#8) (at4 4#8 false [1#1]) = .next t) ∧
    changeDue (at4 4#8 false [1#1]) = false ∧ 1 ≠ (at4 4#8 false [0#1]).cfg.nvAddr :=
  ⟨⟨_, rfl⟩, ⟨_, rfl⟩, by decide, by decide⟩

theorem witness_ElementFrame : (∃ t, exec (.pat 2) (at4 4#8 false []) = .next t) ∧
    (∃ t, exec .endlib (at4 4#8 false []) = .next t) ∧
    (∃ t, exec (.endMark 1#8 2#8 3#8 4#8) (at4 4#8 false []) = .next t) ∧
    1 ≠ (at4 4#8 false []).cfg.nvAddr ∧ ({ exampleCfg with persist := false }).persist = false :=
  ⟨⟨_, rfl⟩, ⟨_, rfl⟩, ⟨_, rfl⟩, by decide, by decide⟩

/-- The first index past the store (3) and past the directory (3), and no sentinel at all. -/
theorem witness_FetchOutsideTheTablesIsRefused : (16#8 : Byte) ≠ 0#8 ∧
    readFrag cfg4 ({ at4 4#8 false [] with fptr := 3 }).fptr = none ∧
    (changeDue (at4 4#8 false [1#1]) = false ∧
      readFrag cfg4 ((({ at4 4#8 false [] with fptr := 2 }).fptr + 1) % 2 ^ cfg4.fidxW) = none) ∧
    (changeDue (at4 4#8 false [0#1]) = true ∧ readDir cfg4 ((2#8 : Byte) + 1#8).toNat = none) ∧
    readDir cfg4 (3#8 : Byte).toNat = none ∧
    (readDir { cfg4 with frags := [] } 0 = some 0 ∧ readFrag { cfg4 with frags := [] } 0 = none) ∧
    readDir { cfg4 with dir := [0, 1] } 0 = none := by decide

theorem witness_CooldownBranch : ({ at4 4#8 false [0#1] with cd := 1#8 }).cd ≠ 0#8 ∧ (254#8 : Byte) ≠ 0#8 ∧
    ({ at4 4#8 false [0#1] with cd := 1#8 }).fc ≠ 1#8 := by decide

theorem witness_IdleBranch : (at4 4#8 false [1#1]).cd = 0#8 ∧ buttonAt (at4 4#8 false [1#1]) 0 = 1#1 := by
  decide

/-- The next pattern, and the wrap to pattern 0. -/
theorem witness_PressedBranch :
    (∃ (e : Nat) (q : Record) (s : State), s.cd = 0#8 ∧ buttonAt s 0 = 0#1 ∧
      readDir s.cfg (s.pidx + 1#8).toNat = some e ∧ e ≠ nullFrag s.cfg.fidxW ∧ readFrag s.cfg e = some q) ∧
    ∃ (e d : Nat) (q : Record) (s : State), s.cd = 0#8 ∧ buttonAt s 0 = 0#1 ∧
      readDir s.cfg (s.pidx + 1#8).toNat = some e ∧ e = nullFrag s.cfg.fidxW ∧
      readDir s.cfg 0 = some d ∧ readFrag s.cfg d = some q :=
  ⟨⟨2, rec2, at4 4#8 false [0#1], by decide⟩,
    ⟨255, 0, rec0, { at4 4#8 false [0#1] with pidx := 1#8 }, by decide⟩⟩

theorem witness_NextPatternIsModulo : ∃ (s : State) (n : Nat) (r : Record), configWf s.cfg = true ∧
    npat s.cfg = some n ∧ s.pidx.toNat + 1 = n ∧ changeDue s = true ∧ readFrag s.cfg s.fptr = some r :=
  ⟨{ at4 4#8 false [0#1] with pidx := 1#8, fptr := 2 }, 2, rec2, by decide⟩

theorem witness_PatternChangeIsPersisted :
    (∃ s : State, Memory.wf s.nv = true ∧ (∃ t, seqStep s = .next t) ∧ s.cfg.persist = true ∧
      changeDue s = true ∧ configWf s.cfg = true ∧ ∃ n, npat s.cfg = some n ∧ s.pidx.toNat < n) ∧
    (∃ s : State, Memory.wf s.nv = true ∧ (∃ t, seqStep s = .next t) ∧ changeDue s = false) ∧
    ∃ s : State, Memory.wf s.nv = true ∧ (∃ t, seqStep s = .next t) ∧ s.cfg.persist = false ∧
      changeDue s = true :=
  ⟨⟨at4 4#8 false [0#1], by decide, ⟨_, rfl⟩, by decide, by decide, by decide, 2, by decide, by decide⟩,
    ⟨at4 4#8 false [1#1], by decide, ⟨_, rfl⟩, by decide⟩,
    ⟨due { exampleCfg with persist := false } 0#8 0 16#8 0#8 0#8 128#8 [0#1], by decide, ⟨_, rfl⟩,
      by decide, by decide⟩⟩

theorem witness_PatternsAreCycled : configWf (at4 4#8 true []).cfg = true ∧
    npat (at4 4#8 true []).cfg = some 2 ∧ (at4 4#8 true []).pidx.toNat < 2 := by decide

/-- COOLDOWN = 2, the button held: the first run after a pattern change, and the run after the window. -/
theorem witness_HeldButtonActsOncePerWindow : ∃ s : State, configWf s.cfg = true ∧ positionOk s ∧
    frameCountOk s ∧ s.cd = s.cfg.cooldown ∧ 0 < s.cfg.cooldown.toNat ∧ 2 = s.cfg.cooldown.toNat := by
  let c : Config := { cfgOf 4#8 exampleFrags [0, 2, 255] with cooldown := 2#8 }
  refine ⟨due c 0#8 0 16#8 2#8 0#8 128#8 [0#1, 0#1, 0#1], by decide, ?_, ?_, by decide, by decide, by decide⟩
  · exact ⟨2, 0, by decide, by decide, by decide, Nat.le_refl _,
      fun j h1 h2 => absurd h2 (Nat.not_lt.2 h1), rec0, by decide, by decide⟩
  · intro r hr _
    obtain rfl : rec0 = r := Option.some.inj (Eq.trans (by decide) hr)
    exact ⟨by decide, by decide⟩

theorem witness_OnlyAPressChangesThePattern : ∃ t, step (at4 4#8 false [0#1]) = .next t ∧
    (t.pidx ≠ (at4 4#8 false [0#1]).pidx ∨ t.nv ≠ (at4 4#8 false [0#1]).nv) :=
  ⟨_, rfl, .inl (by decide)⟩

/-- RAMP 2, (10, +1), (20, +2); END, just loaded, with two samples of a released button. -/
def loadedRamp : State :=
  due (cfgOf 4#8 [0x020A011402#40, 0xFF00000000#40] [0, 255]) 0#8 0 2#8 0#8 10#8 20#8 [1#1, 1#1]

/-- Its record. -/
def rampRec : Record := ⟨2#8, ⟨10#8, 20#8⟩, ⟨1#8, 2#8⟩⟩

theorem quiet_loadedRamp : quiet 2 loadedRamp := by
  unfold quiet
  decide

theorem justLoaded_loadedRamp : justLoaded loadedRamp rampRec :=
  ⟨by decide, ⟨by decide, by decide⟩, by decide, by decide⟩

theorem witness_LinearFormula : justLoaded loadedRamp rampRec ∧ 1 < rampRec.len.toNat ∧ quiet 1 loadedRamp :=
  ⟨justLoaded_loadedRamp, by decide, fun j hj => quiet_loadedRamp j (by omega)⟩

/-- The same fragment with its pair pending, just before a boundary: the last window of its two. -/
theorem witness_WindowsShowTheRamp : ∃ s : State, configWf s.cfg = true ∧ s.fp = true ∧ s.lat = 0 ∧
    s.cnt ≠ 0#8 ∧ justLoaded s rampRec ∧ 1 < rampRec.len.toNat ∧ quiet 1 s :=
  ⟨{ loadedRamp with fp := true, cnt := 1#8 }, by decide, by decide, by decide, by decide,
    ⟨by decide, ⟨by decide, by decide⟩, by decide, by decide⟩, by decide,
    fun j hj => quiet_loadedRamp j (by omega)⟩

/-- Before END, and (a RAMP of one frame, then HOLD) before another record. -/
theorem witness_RampLastsItsLength :
    (justLoaded loadedRamp rampRec ∧ quiet rampRec.len.toNat loadedRamp ∧
      (∃ q, readFrag loadedRamp.cfg ((loadedRamp.fptr + 1) % 2 ^ loadedRamp.cfg.fidxW) = some q ∧
        q.len = 255#8) ∧
      readDir loadedRamp.cfg loadedRamp.pidx.toNat = some 0 ∧
      readFrag loadedRamp.cfg 0 = some rampRec) ∧
    ∃ (s : State) (r q : Record), justLoaded s r ∧ quiet r.len.toNat s ∧
      readFrag s.cfg ((s.fptr + 1) % 2 ^ s.cfg.fidxW) = some q ∧ q.len ≠ 255#8 := by
  refine ⟨⟨justLoaded_loadedRamp, quiet_loadedRamp, ⟨⟨255#8, ⟨0#8, 0#8⟩, ⟨0#8, 0#8⟩⟩, by decide⟩,
    by decide, by decide⟩, ?_⟩
  refine ⟨due (cfgOf 4#8 [0x0107000700#40, 0x0040000000#40] [0, 255]) 0#8 0 1#8 0#8 7#8 7#8 [1#1],
    ⟨1#8, ⟨7#8, 7#8⟩, ⟨0#8, 0#8⟩⟩, rec2, ⟨by decide, ⟨by decide, by decide⟩, by decide, by decide⟩, ?_,
    by decide, by decide⟩
  unfold quiet
  decide

theorem witness_HoldLastsForEver : ∃ s : State, readFrag s.cfg s.fptr = some rec2 ∧ rec2.len = 0#8 ∧
    quiet 2 s := by
  refine ⟨{ at4 4#8 false [1#1, 1#1] with pidx := 1#8, fptr := 2 }, by decide, by decide, ?_⟩
  unfold quiet
  decide

theorem witness_HoldIsLeftOnlyByAPress : ∃ s t : State, readFrag s.cfg s.fptr = some rec2 ∧
    rec2.len = 0#8 ∧ step s = .next t ∧ (t.fptr ≠ s.fptr ∨ t.int ≠ s.int) :=
  ⟨{ at4 4#8 false [0#1] with pidx := 1#8, fptr := 2 }, _, by decide, by decide, rfl, .inl (by decide)⟩

/-- The same library, whose pattern is one record long. -/
theorem witness_PatternRepeatsWithItsPeriod :
    readDir loadedRamp.cfg loadedRamp.pidx.toNat = some 0 ∧ loadedRamp.fptr = 0 ∧
    justLoaded loadedRamp rampRec ∧ 1 ≤ 1 ∧ 0 + 1 < 2 ^ loadedRamp.cfg.fidxW ∧
    (∀ j, j < 1 → ∃ x, readFrag loadedRamp.cfg (0 + j) = some x ∧ isRamp x) ∧
    (∃ q, readFrag loadedRamp.cfg (0 + 1) = some q ∧ q.len = 255#8) ∧
    quiet (framesOf loadedRamp.cfg 0 1) loadedRamp := by
  refine ⟨by decide, by decide, justLoaded_loadedRamp, by decide, by decide, fun j hj => ?_,
    ⟨⟨255#8, ⟨0#8, 0#8⟩, ⟨0#8, 0#8⟩⟩, by decide⟩, quiet_loadedRamp⟩
  obtain rfl : j = 0 := by omega
  exact ⟨rampRec, by decide, by decide, by decide⟩

theorem witness_EngineNeverStops : Inv (at4 1#8 true []) ∧ configWf (at4 1#8 true []).cfg = true ∧
    Inv (at4 4#8 false [0#1]) ∧ configWf (at4 4#8 false [0#1]).cfg = true :=
  ⟨inv_at4 _ _ _ (by decide) (by decide), by decide, inv_at4 _ _ _ (by decide) (by decide), by decide⟩

theorem witness_StepKeepsTheInvariant : Inv (at4 1#8 true []) ∧ (∃ t, step (at4 1#8 true []) = .next t) ∧
    Inv (at4 4#8 false [0#1]) ∧ ∃ t, step (at4 4#8 false [0#1]) = .next t :=
  ⟨inv_at4 _ _ _ (by decide) (by decide), ⟨_, rfl⟩, inv_at4 _ _ _ (by decide) (by decide), ⟨_, rfl⟩⟩

theorem witness_PowerOnMeetsTheInvariant : configWf (at4 9#8 false []).cfg = true ∧
    Memory.wf ({ at4 9#8 false [] with nv := [(0, 2#8), (7, 1#8)] }).nv = true := by decide

/-- A first entry, a changed one, one removed because it holds what an unlisted byte reads as. -/
theorem witness_StoreReadsTheLastWrite : Memory.wf [(3, 1#8), (5, 2#8)] = true ∧ (5 : Nat) ≠ 3 ∧
    Memory.write [(3, 1#8), (5, 2#8)] 0 9#8 = [(0, 9#8), (3, 1#8), (5, 2#8)] ∧
    Memory.write [(3, 1#8), (5, 2#8)] 5 9#8 = [(3, 1#8), (5, 9#8)] ∧
    Memory.write [(3, 1#8), (5, 2#8)] 3 255#8 = [(5, 2#8)] := by decide

theorem witness_ArithmeticIsModulo256 : atBoundary (at4 0#8 true []) = false ∧
    atBoundary (at4 2#8 true []) = false := by decide

end Sys2Proof.Tests
end

section
/-! The three kinds of a record (R74) and the proof of O2. -/

namespace Sys2Proof

/-- Five bytes decode as the instruction of the record they spell (R70). -/
theorem decodeRecord_bytes (len i0 s0 i1 s1 : Byte) :
    decodeRecord (len ++ i0 ++ s0 ++ i1 ++ s1) = instrOfRecord ⟨len, ⟨i0, i1⟩, ⟨s0, s1⟩⟩ :=
  congrArg instrOfRecord (recordOfWord_bytes len i0 s0 i1 s1)

theorem instrOfRecord_hold (init inc : Pair Byte) :
    instrOfRecord ⟨0#8, init, inc⟩ = .hold init.c0 inc.c0 init.c1 inc.c1 :=
  if_pos rfl

theorem instrOfRecord_endMark (init inc : Pair Byte) :
    instrOfRecord ⟨endLen, init, inc⟩ = .endMark init.c0 inc.c0 init.c1 inc.c1 :=
  (if_neg (show endLen ≠ 0#8 by decide)).trans (if_pos rfl)

theorem instrOfRecord_ramp {len : Byte} (init inc : Pair Byte) (h0 : len ≠ 0#8)
    (hEnd : len ≠ endLen) :
    instrOfRecord ⟨len, init, inc⟩ = .ramp len init.c0 inc.c0 init.c1 inc.c1 :=
  (if_neg h0).trans (if_neg hEnd)

/-- Settles O2: `len` alone selects the branch of `instrOfRecord`, and the five fields of a word spell it. -/
theorem recordKindByLenAlone : Obligations.RecordKindByLenAlone := by
  refine ⟨fun len i0 s0 i1 s1 => ?_, fun w => ⟨_, _, _, _, _, (fields_byte w).symm⟩⟩
  rw [decodeRecord_bytes]
  refine ⟨?hold, ?endMark, ?ramp⟩
  case hold =>
    rintro rfl
    exact instrOfRecord_hold ⟨i0, i1⟩ ⟨s0, s1⟩
  case endMark =>
    rintro rfl
    exact instrOfRecord_endMark ⟨i0, i1⟩ ⟨s0, s1⟩
  case ramp => exact instrOfRecord_ramp ⟨i0, i1⟩ ⟨s0, s1⟩

end Sys2Proof
end

section
/-! The two cases of the counter rule (R93) and the proof of O16. -/

namespace Sys2Proof.Machine

theorem atBoundary_of_decrement_zero {s : State} (h : s.cnt - 1#8 = 0#8) : atBoundary s = true :=
  beq_iff_eq.2 h

theorem atBoundary_of_decrement_ne_zero {s : State} (h : s.cnt - 1#8 ≠ 0#8) : atBoundary s = false :=
  beq_eq_false_iff_ne.2 h

/-- Settles O16: a TICK is a boundary exactly when the decrement gives 0; only `frameBoundary` then touches
FP and TGT, and an ordinary TICK writes neither. -/
theorem counterReloadsAtZero : Obligations.CounterReloadsAtZero := by
  intro s
  refine ⟨tick_out_get s, fun hzero => ?boundary, fun hnonzero => ?ordinary⟩
  case boundary =>
    rw [tick_boundary (atBoundary_of_decrement_zero hzero)]
    exact ⟨by simp, fun hfp => by simp [hfp]⟩
  case ordinary =>
    rw [tick_ordinary (atBoundary_of_decrement_ne_zero hnonzero)]
    exact ⟨rfl, rfl, rfl⟩

end Sys2Proof.Machine
end

section
/-! Reading back the byte just written (R53), the store and the index after a run (R145), the index RESET
boots (R212), and the proof of O45. -/

namespace Sys2Proof.Machine

/-- R53, at the written address. The head's address lies below, at or above it, as in `Memory.write`; the
canonical form is needed where `unwritten` is written, which is stored as no entry. -/
theorem Memory.read_write_same {m : Memory} (hwf : Memory.wf m = true) (a : Nat) (v : Byte) :
    Memory.read (Memory.write m a v) a = v := by
  induction m with
  | nil => by_cases hv : v = unwritten <;> simp [Memory.write, Memory.read, hv]
  | cons head rest ih =>
    obtain ⟨b, x⟩ := head
    obtain ⟨-, hrising, hrest⟩ := Memory.wf_cons.1 hwf
    rcases Nat.lt_trichotomy a b with hlt | rfl | hgt
    · by_cases hv : v = unwritten
      · have habove : ∀ c ∈ (b, x) :: rest, a < c.1 := by
          simpa [hlt] using fun c y hc => Nat.lt_trans hlt (hrising (c, y) hc)
        simpa [Memory.write, hlt, hv] using Memory.read_of_lt habove
      · simp [Memory.write, hlt, hv, Memory.read_cons]
    · by_cases hv : v = unwritten
      · simpa [Memory.write, hv] using Memory.read_of_lt hrising
      · simp [Memory.write, hv, Memory.read_cons]
    · have hne : a ≠ b := Nat.ne_of_gt hgt
      simpa [Memory.write, Nat.lt_asymm hgt, hne, Memory.read_cons] using ih hrest

/-- The pressed branch writes the index it chooses, under PERSIST only (R145). -/
theorem selectNext_nv {s t : State} (h : selectNext s = .next t) :
    t.nv = if s.cfg.persist then Memory.write s.nv s.cfg.nvAddr t.pidx else s.nv := by
  obtain ⟨p, i, r, -, rfl, -⟩ := selectNext_eq_next.1 h
  rfl

/-- A real entry that can be read stands below the sentinel (R52). -/
theorem lt_npat_of_readDir {c : Config} {n p e : Nat} (hn : npat c = some n) (he : readDir c p = some e)
    (hreal : e ≠ nullFrag c.fidxW) : p < n := by
  have hle : p ≤ n := by
    by_contra hgt
    simp [readDir, hn, hgt] at he
  refine Nat.lt_of_le_of_ne hle fun heq => hreal ?_
  rw [heq, (readDir_at hn).2] at he
  exact (Option.some.inj he).symm

/-- The pressed branch chooses a pattern's index (R144): the next one has a real entry, and 0 is below NPAT. -/
theorem selectNext_pidx_lt {s t : State} {n : Nat} (hn : npat s.cfg = some n) (hpos : 1 ≤ n)
    (h : selectNext s = .next t) : t.pidx.toNat < n := by
  obtain ⟨p, i, r, -, rfl, e, he, ⟨hreal, rfl, -⟩ | ⟨-, rfl, -⟩⟩ := selectNext_eq_next.1 h
  · exact lt_npat_of_readDir hn he hreal
  · exact hpos

theorem advance_nv {s t : State} (h : advance s = .next t) : t.nv = s.nv := by
  obtain ⟨r, -, ⟨-, rfl⟩ | ⟨-, i, q, -, -, rfl⟩⟩ := advance_eq_next.1 h <;> rfl

/-- A run without a pattern change writes nothing. -/
theorem seqStep_nv_of_quiet {s t : State} (h : seqStep s = .next t) (hq : changeDue s = false) :
    t.nv = s.nv := by
  obtain ⟨r, u, -, hu, rfl⟩ := seqStep_eq_next.1 h
  rcases seqRun_cases hu with ⟨hc, -⟩ | ⟨-, -, rfl⟩ | ⟨-, -, -, hadv⟩
  · exact absurd hc (by simp [hq])
  · simp
  · simpa using advance_nv hadv

/-- A run with a pattern change is the pressed branch from the state after step 2, and then `FP <- 1`. -/
theorem seqStep_change {s t : State} (h : seqStep s = .next t) (hc : changeDue s = true) :
    ∃ r u, selectNext (rampStep r s).sampleTaken = .next u ∧ t = u.setPending := by
  obtain ⟨r, u, -, hu, rfl⟩ := seqStep_eq_next.1 h
  exact ⟨r, u, by rwa [seqRun_change hc] at hu, rfl⟩

theorem seqStep_nv_of_change {s t : State} (h : seqStep s = .next t) (hc : changeDue s = true) :
    t.nv = if s.cfg.persist then Memory.write s.nv s.cfg.nvAddr t.pidx else s.nv := by
  obtain ⟨r, u, hu, rfl⟩ := seqStep_change h hc
  simpa using selectNext_nv hu

theorem seqStep_pidx_lt_of_change {s t : State} {n : Nat} (hn : npat s.cfg = some n) (hpos : 1 ≤ n)
    (h : seqStep s = .next t) (hc : changeDue s = true) : t.pidx.toNat < n := by
  obtain ⟨r, u, hu, rfl⟩ := seqStep_change h hc
  rw [State.setPending_pidx]
  exact selectNext_pidx_lt (by simpa using hn) hpos hu

/-- Under PERSIST a stored index of a pattern is the boot index (R212). -/
theorem bootIndex_persisted {s : State} {n : Nat} (hp : s.cfg.persist = true) (hn : npat s.cfg = some n)
    (hlt : (Memory.read s.nv s.cfg.nvAddr).toNat < n) : bootIndex s = Memory.read s.nv s.cfg.nvAddr := by
  simp [bootIndex, hp, hn, hlt]

/-- RESET completes on a well-formed configuration, and the boot index becomes PIDX (R211). -/
theorem powerOn_pidx {s : State} (hw : configWf s.cfg = true) :
    ∃ u, powerOn s = .next u ∧ u.pidx = bootIndex s := by
  obtain ⟨n, hn, hpos, -, -, hpatterns⟩ := configWf_library hw
  obtain ⟨d, hd, hpat, -⟩ := hpatterns _ (bootIndex_lt hn hpos)
  obtain ⟨⟨r, hr, -⟩, -⟩ := patternWf_iff.1 hpat
  exact ⟨(s.rebooted (bootIndex s)).loaded d r, by simp [powerOn, hw, hd, load_of_some, hr], rfl⟩

/-- Settles O45: a run with a pattern change writes the new index under PERSIST and every other run writes
nothing; the new index is below NPAT, so RESET boots what it reads back. -/
theorem patternChangeIsPersisted : Obligations.PatternChangeIsPersisted := by
  intro s t hwf h
  have hstored : s.cfg.persist = true → changeDue s = true →
      Memory.read t.nv s.cfg.nvAddr = t.pidx := fun hp hc => by
    rw [seqStep_nv_of_change h hc, if_pos hp, Memory.read_write_same hwf]
  refine ⟨hstored, fun hno => ?untouched, fun hp hc hw _ => ?readBack⟩
  case untouched =>
    cases hc : changeDue s with
    | false => exact seqStep_nv_of_quiet h hc
    | true => simpa [hno.resolve_right (by simp [hc])] using seqStep_nv_of_change h hc
  case readBack =>
    obtain ⟨n, hn, hpos, -⟩ := configWf_library hw
    have hlt := seqStep_pidx_lt_of_change hn hpos h hc
    have hcfg : t.cfg = s.cfg := (seqStep_same h).cfg
    have hread : Memory.read t.nv t.cfg.nvAddr = t.pidx := hcfg ▸ hstored hp hc
    obtain ⟨u, hu, hpidx⟩ := powerOn_pidx (s := t) (by rwa [hcfg])
    refine ⟨u, hu, ?_⟩
    rw [hpidx, bootIndex_persisted (by rwa [hcfg]) (by rwa [hcfg]) (by rwa [hread]), hread]

end Sys2Proof.Machine
end

section
/-! Everything RESET can do (R211), the boot indices that are 0 (R212), and the proof of O12. -/

namespace Sys2Proof.Machine

/-- RESET answers only on a well-formed configuration, and then with the boot pattern's first fragment
loaded into the re-created cells (R211). -/
theorem powerOn_eq_next {s t : State} :
    powerOn s = .next t ↔ configWf s.cfg = true ∧ ∃ d r, readDir s.cfg (bootIndex s).toNat = some d ∧
      readFrag s.cfg d = some r ∧ t = (s.rebooted (bootIndex s)).loaded d r := by
  unfold powerOn
  by_cases hw : configWf s.cfg = true
  · cases hd : readDir s.cfg (bootIndex s).toNat with
    | none => simp [hw]
    | some d => simp [hw, load_eq_next]
  · simp [hw]

/-- RESET leaves the store. -/
theorem powerOn_nv {s t : State} (h : powerOn s = .next t) : t.nv = s.nv := by
  obtain ⟨-, d, r, -, -, rfl⟩ := powerOn_eq_next.1 h
  rfl

/-- The store reaches the cells RESET writes through the boot index alone. -/
theorem powerOn_with_nv {s t : State} {m : Memory} (hboot : bootIndex { s with nv := m } = bootIndex s)
    (h : powerOn s = .next t) : powerOn { s with nv := m } = .next { t with nv := m } := by
  obtain ⟨hw, d, r, hd, hr, rfl⟩ := powerOn_eq_next.1 h
  refine powerOn_eq_next.2 ⟨hw, d, r, ?_, hr, ?_⟩ <;> rw [hboot]
  · exact hd
  · rfl

/-- A stored index that names no pattern boots pattern 0 (R181). -/
theorem bootIndex_of_npat_le {s : State} {n : Nat} (hn : npat s.cfg = some n)
    (hbad : n ≤ (Memory.read s.nv s.cfg.nvAddr).toNat) : bootIndex s = 0#8 := by
  cases hp : s.cfg.persist <;> simp [bootIndex, hp, hn, Nat.not_lt.2 hbad]

theorem bootIndex_of_read_zero {s : State} (h0 : Memory.read s.nv s.cfg.nvAddr = 0#8) :
    bootIndex s = 0#8 := by
  cases hn : npat s.cfg <;> simp [bootIndex, hn, h0]

/-- Settles O12: the bad index and a stored 0 give the same boot index, the one thing RESET takes from the
store. -/
theorem badPersistedIndexBootsZero : Obligations.BadPersistedIndexBootsZero := by
  intro s n hw _ hn hbad
  have hboot : bootIndex s = 0#8 := bootIndex_of_npat_le hn hbad
  obtain ⟨t, ht, hpidx⟩ := powerOn_pidx hw
  refine ⟨t, ht, hpidx.trans hboot, powerOn_nv ht, fun m hm => powerOn_with_nv ?_ ht⟩
  exact (bootIndex_of_read_zero (s := { s with nv := m }) hm).trans hboot.symm

end Sys2Proof.Machine
end

section
/-! The two tables in both directions (R70, R74, R75) and the proofs of O4, O5, O3 and O1. -/

namespace Sys2Proof

theorem decodeRecord_wordOfRecord (r : Record) : decodeRecord (wordOfRecord r) = instrOfRecord r :=
  congrArg instrOfRecord (recordOfWord_wordOfRecord r)

theorem nullFrag_lt (fidxW : Nat) : nullFrag fidxW < 2 ^ fidxW :=
  Nat.sub_one_lt (Nat.two_pow_pos fidxW).ne'

theorem decodeEntry_nullFrag (fidxW : Nat) : decodeEntry fidxW (nullFrag fidxW) = .ok .endlib := by
  simp [decodeEntry, nullFrag_lt]

theorem decodeEntry_below {fidxW e : Nat} (h : e < nullFrag fidxW) :
    decodeEntry fidxW e = .ok (.pat e) := by
  simp [decodeEntry, h.trans (nullFrag_lt fidxW), h.ne]

theorem decodeEntry_tooWide {fidxW e : Nat} (h : 2 ^ fidxW ≤ e) :
    decodeEntry fidxW e = .error .entryTooWide :=
  if_pos h

/-- The two kinds of an entry that is one (R75). -/
theorem decodeEntry_eq_ok {fidxW e : Nat} {i : Instr} (h : decodeEntry fidxW e = .ok i) :
    (e = nullFrag fidxW ∧ i = .endlib) ∨ (e < nullFrag fidxW ∧ i = .pat e) := by
  rcases Nat.lt_trichotomy e (nullFrag fidxW) with hlt | rfl | hgt
  · rw [decodeEntry_below hlt] at h
    exact .inr ⟨hlt, (Except.ok.inj h).symm⟩
  · rw [decodeEntry_nullFrag] at h
    exact .inl ⟨rfl, (Except.ok.inj h).symm⟩
  · rw [decodeEntry_tooWide (Nat.le_of_pred_lt hgt)] at h
    cases h

/-- Settles O4, by the kind of instruction: the word's fields are read back, and `len`, or the entry's place
below the sentinel, selects the kind again. -/
theorem decodeOfEncode : Obligations.DecodeOfEncode := by
  intro fidxW i hwf
  cases i with
  | ramp len i0 s0 i1 s1 =>
    obtain ⟨h0, hEnd⟩ : len ≠ 0#8 ∧ len ≠ endLen := by simpa [Instr.wf, endLen] using hwf
    exact congrArg _ ((decodeRecord_wordOfRecord _).trans (instrOfRecord_ramp _ _ h0 hEnd))
  | hold i0 s0 i1 s1 =>
    exact congrArg _ ((decodeRecord_wordOfRecord _).trans (instrOfRecord_hold _ _))
  | endMark i0 s0 i1 s1 =>
    exact congrArg _ ((decodeRecord_wordOfRecord _).trans (instrOfRecord_endMark _ _))
  | pat first =>
    obtain ⟨-, hlt⟩ : 1 ≤ fidxW ∧ first < nullFrag fidxW := by simpa [Instr.wf, nullFrag] using hwf
    exact decodeEntry_below hlt
  | endlib => exact decodeEntry_nullFrag fidxW

/-- Each kind keeps all five fields, the ignored ones included, and a RAMP has a RAMP's `len` (R74). -/
theorem encode_instrOfRecord (fidxW : Nat) (r : Record) :
    encode fidxW (instrOfRecord r) = .record (wordOfRecord r) ∧ (instrOfRecord r).wf fidxW = true := by
  obtain ⟨len, init, inc⟩ := r
  by_cases h0 : len = 0#8
  · subst h0
    rw [instrOfRecord_hold]
    exact ⟨rfl, rfl⟩
  by_cases hEnd : len = endLen
  · subst hEnd
    rw [instrOfRecord_endMark]
    exact ⟨rfl, rfl⟩
  · rw [instrOfRecord_ramp init inc h0 hEnd]
    exact ⟨rfl, by simpa [Instr.wf] using ⟨h0, hEnd⟩⟩

/-- Settles O5, by the table the element stands in. -/
theorem encodeOfDecode : Obligations.EncodeOfDecode := by
  intro fidxW x i hwidth h
  cases x with
  | record w =>
    obtain rfl : decodeRecord w = i := Except.ok.inj h
    simpa [decodeRecord] using encode_instrOfRecord fidxW (recordOfWord w)
  | entry e =>
    rcases decodeEntry_eq_ok h with ⟨rfl, rfl⟩ | ⟨hlt, rfl⟩
    · exact ⟨rfl, by simpa [Instr.wf] using hwidth⟩
    · exact ⟨rfl, by simpa [Instr.wf] using ⟨hwidth, hlt⟩⟩

/-- Settles O3: at, below and above the sentinel's value. -/
theorem entryKindByValue : Obligations.EntryKindByValue := by
  rintro fidxW e
  refine ⟨?_, decodeEntry_below, decodeEntry_tooWide⟩
  rintro rfl
  exact decodeEntry_nullFrag fidxW

/-- Settles O1: the decoder evaluated on the spec's ten words. -/
theorem sampleWordsDecode : Obligations.SampleWordsDecode := by
  refine ⟨?_, ?_, ?_, ?_, ?_, ?_, ?_, ?_, ?_, ?_⟩ <;> rfl

end Sys2Proof
end

section
/-! The store (R53), the arithmetic (R3), the check of the configuration (R78, R80), and the proofs of O59,
O7, O8 and O10. -/

namespace Sys2Proof.Machine

/-- R53, at every other address. The head's address lies below, at or above the written one. -/
theorem Memory.read_write_of_ne {m : Memory} {a b : Nat} (v : Byte) (hne : b ≠ a) :
    Memory.read (Memory.write m a v) b = Memory.read m b := by
  induction m with
  | nil => by_cases hv : v = unwritten <;> simp [Memory.write, Memory.read, hv, hne]
  | cons head rest ih =>
    obtain ⟨c, x⟩ := head
    rcases Nat.lt_trichotomy a c with hlt | rfl | hgt
    · by_cases hv : v = unwritten <;> simp [Memory.write, hlt, hv, Memory.read_cons, hne]
    · by_cases hv : v = unwritten <;> simp [Memory.write, hv, Memory.read_cons, hne]
    · simp [Memory.write, Nat.lt_asymm hgt, hgt.ne', Memory.read_cons, ih]

/-- Settles O59: the written address and every other one. -/
theorem storeReadsTheLastWrite : Obligations.StoreReadsTheLastWrite :=
  fun _ a _ v hwf => ⟨Memory.read_write_same hwf a v, Memory.read_write_of_ne v⟩

theorem byte_sub_one_eq_zero {b : Byte} : b - 1#8 = 0#8 ↔ b = 1#8 := sub_eq_zero

theorem byte_pos_iff {b : Byte} : b ≠ 0#8 ↔ 1 ≤ b.toNat := by bv_omega

theorem byte_eq_one_iff {b : Byte} : b = 1#8 ↔ b.toNat = 1 := by bv_omega

theorem byte_toNat_sub_one {b : Byte} (h : 1 ≤ b.toNat) : (b - 1#8).toNat = b.toNat - 1 := by bv_omega

/-- Settles O7: `npat` is the first sentinel, and each pattern before it is checked by `patternWf`. -/
theorem libraryCheckIsThePredicate : Obligations.LibraryCheckIsThePredicate := by
  intro c
  rw [libraryWf_iff]
  constructor
  · rintro ⟨n, hn, h1, h255, hpatterns, hsize⟩
    obtain ⟨hsentinel, hbefore⟩ := npat_eq_some.1 hn
    refine ⟨hsize, n, h1, h255, hsentinel, fun p hp => ?_⟩
    obtain ⟨d, hd, hreal⟩ := hbefore p hp
    exact ⟨d, hd, hreal, patternWf_iff.1 (hpatterns p d hp hd)⟩
  · rintro ⟨hsize, n, h1, h255, hsentinel, hbefore⟩
    refine ⟨n, npat_eq_some.2 ⟨hsentinel, fun p hp => ?_⟩, h1, h255, fun p d hp hd => ?_, hsize⟩
    · obtain ⟨d, hd, hreal, -⟩ := hbefore p hp
      exact ⟨d, hd, hreal⟩
    · obtain ⟨d', hd', -, hpattern⟩ := hbefore p hp
      obtain rfl : d = d' := Option.some.inj (hd.symm.trans hd')
      exact patternWf_iff.2 hpattern

/-- Settles O8: both test `configWf` first. -/
theorem illFormedConfigurationRefused : Obligations.IllFormedConfigurationRefused := by
  intro s hw
  exact ⟨by simp [powerOn, hw], by simp [step, hw]⟩

/-- Settles O10: the cells as `State.reset` writes them. -/
theorem resetCells : Obligations.ResetCells := ⟨rfl, rfl, rfl, rfl, rfl, rfl⟩

end Sys2Proof.Machine
end

section
/-! What a run answers, case by case (R111 to R121), and the proofs of O6 and O30 to O37. -/

namespace Sys2Proof.Machine

theorem rampStep_of_zero {f : Record} (h : f.len = 0#8) (s : State) : rampStep f s = s := if_pos h

theorem rampStep_of_ne_zero {f : Record} (h : f.len ≠ 0#8) (s : State) :
    rampStep f s = s.rampAdded f.inc := if_neg h

/-- A run that counts its frame: FC does not reach 0, or the fragment lasts for ever (R115, R116). -/
theorem seqRun_counts {f : Record} {s : State} (hq : changeDue s = false)
    (h : s.fc ≠ 1#8 ∨ f.len = 0#8) :
    seqRun f s = .next (quietSample (rampStep f s)).fcDecremented := by
  rw [seqRun_quiet hq, countFrame, if_neg]
  rintro ⟨hfc, hlen⟩
  exact h.elim (fun hne => hne (byte_sub_one_eq_zero.1 (by simpa using hfc))) hlen

/-- A run that ends its fragment: FC reaches 0 (R117). -/
theorem seqRun_ends {f : Record} {s : State} (hq : changeDue s = false) (hfc : s.fc = 1#8)
    (hlen : f.len ≠ 0#8) :
    seqRun f s = advance (quietSample (rampStep f s)).fcDecremented := by
  rw [seqRun_quiet hq, countFrame, if_pos]
  exact ⟨by simp [hfc], hlen⟩

/-- Steps 6 and 7 where both the successor and the fragment to load, `d`, are there (R117, R118). -/
theorem advance_loads {s : State} {q r : Record} {d : Nat} (hq : readFrag s.cfg (nextFrag s) = some q)
    (hd : (q.len ≠ endLen ∧ d = nextFrag s) ∨ (q.len = endLen ∧ readDir s.cfg s.pidx.toNat = some d))
    (hr : readFrag s.cfg d = some r) : advance s = .next (s.loaded d r) := by
  rcases hd with ⟨hreal, rfl⟩ | ⟨hend, hdir⟩
  · obtain rfl := Option.some.inj (hq.symm.trans hr)
    exact advance_eq_next.2 ⟨q, hq, .inl ⟨hreal, rfl⟩⟩
  · exact advance_eq_next.2 ⟨q, hq, .inr ⟨hend, d, r, hdir, hr, rfl⟩⟩

theorem advance_refused {s : State} (h : readFrag s.cfg (nextFrag s) = none) :
    advance s = .refused (.fragmentOutsideStore (nextFrag s)) := by
  simp [advance, h]

theorem advance_of_end {s : State} {q : Record} (hq : readFrag s.cfg (nextFrag s) = some q)
    (hend : q.len = endLen) :
    advance s = execEndMark q.init.c0 q.inc.c0 q.init.c1 q.inc.c1 s := by
  simp [advance, hq, hend]

/-- The pressed branch is the meaning of the decoded entry (R144). -/
theorem selectNext_of_decodeEntry {s : State} {e : Nat} {j : Instr}
    (he : readDir s.cfg (s.pidx + 1#8).toNat = some e) (hj : decodeEntry s.cfg.fidxW e = .ok j) :
    selectNext s = exec j s := by
  rcases decodeEntry_eq_ok hj with ⟨rfl, rfl⟩ | ⟨hlt, rfl⟩
  · simp only [selectNext, he, if_true, exec]
  · simp only [selectNext, he, hlt.ne, if_false, exec]

theorem selectNext_refused {s : State} (h : readDir s.cfg (s.pidx + 1#8).toNat = none) :
    selectNext s = .refused (.entryOutsideDirectory (s.pidx + 1#8).toNat) := by
  simp only [selectNext, h]

theorem exec_endMark (i0 a0 i1 a1 : Byte) (s : State) :
    exec (.endMark i0 a0 i1 a1) s = execEndMark i0 a0 i1 a1 s := rfl

theorem exec_pat (first : Nat) (s : State) :
    exec (.pat first) s = changePattern (s.pidx + 1#8) first s := rfl

theorem exec_endlib (s : State) : exec .endlib s = execEndlib s := rfl

theorem execEndMark_of_some (i0 a0 i1 a1 : Byte) {s : State} {d : Nat}
    (hd : readDir s.cfg s.pidx.toNat = some d) : execEndMark i0 a0 i1 a1 s = load d s := by
  simp [execEndMark, hd]

theorem execEndMark_refused (i0 a0 i1 a1 : Byte) {s : State} (h : readDir s.cfg s.pidx.toNat = none) :
    execEndMark i0 a0 i1 a1 s = .refused (.entryOutsideDirectory s.pidx.toNat) := by
  simp [execEndMark, h]

theorem execEndlib_of_some {s : State} {d : Nat} (hd : readDir s.cfg 0 = some d) :
    execEndlib s = changePattern 0#8 d s := by
  simp [execEndlib, hd]

theorem execEndlib_refused {s : State} (h : readDir s.cfg 0 = none) :
    execEndlib s = .refused (.entryOutsideDirectory 0) := by
  simp [execEndlib, h]

theorem load_refused {i : Nat} {s : State} (h : readFrag s.cfg i = none) :
    load i s = .refused (.fragmentOutsideStore i) := by
  simp [load, h]

theorem changePattern_refused {p : Byte} {i : Nat} {s : State} (h : readFrag s.cfg i = none) :
    changePattern p i s = .refused (.fragmentOutsideStore i) := by
  simp [changePattern, load, h]

theorem seqStep_refused {s : State} (h : readFrag s.cfg s.fptr = none) :
    seqStep s = .refused (.fragmentOutsideStore s.fptr) := by
  have hw : s.cfg.frags[s.fptr]? = none := by simpa [readFrag] using h
  simp [seqStep, hw]

theorem decodeRecord_of_end {w : RecWord} (h : (recordOfWord w).len = endLen) :
    decodeRecord w = .endMark (recordOfWord w).init.c0 (recordOfWord w).inc.c0 (recordOfWord w).init.c1
      (recordOfWord w).inc.c1 := by
  simp [decodeRecord, instrOfRecord, h, endLen]

/-- A RAMP or HOLD record runs as it is decoded. -/
theorem asCurrent_decodeRecord {w : RecWord} (h : (recordOfWord w).len ≠ endLen) :
    asCurrent (decodeRecord w) = decodeRecord w := by
  by_cases h0 : (recordOfWord w).len = 0#8 <;> simp [decodeRecord, instrOfRecord, h, h0, asCurrent]

/-- Settles O6: a run reads `len` and, of a record that lasts for ever, nothing else; END reads no byte. -/
theorem ignoredBytesHaveNoEffect : Obligations.IgnoredBytesHaveNoEffect := by
  intro a b c d a' b' c' d' s
  refine ⟨?_, rfl⟩
  simp [seqRun, rampStep_of_zero, countFrame]

/-- Settles O32: the run adds the ramps and counts its frame. -/
theorem rampAddsAndCounts : Obligations.RampAddsAndCounts := by
  intro fidxW n i0 a0 i1 a1 s hwf hq hfc
  obtain ⟨hn, -⟩ : n ≠ 0#8 ∧ n ≠ 255#8 := by simpa [Instr.wf] using hwf
  rw [exec_ramp, seqRun_counts hq (.inl hfc), rampStep_of_ne_zero hn]
  rfl

/-- Settles O33: FC reaches 0, and `advance` loads the successor or the pattern's first fragment. -/
theorem fragmentEndLoadsTheNext : Obligations.FragmentEndLoadsTheNext := by
  intro n i0 a0 i1 a1 q r d s hn hq hfc hsucc hd hr
  rw [exec_ramp, seqRun_ends hq hfc hn, rampStep_of_ne_zero hn]
  exact advance_loads hsucc hd hr

/-- Settles O34: a record of `len` 0 adds nothing and always counts. -/
theorem holdOnlyCounts : Obligations.HoldOnlyCounts := by
  intro i0 a0 i1 a1 s hq
  rw [exec_hold, seqRun_counts hq (.inr rfl), rampStep_of_zero rfl]
  rfl

/-- Settles O35: END is the LOAD of `Dir(PIDX)`. -/
theorem endLoadsThePatternStart : Obligations.EndLoadsThePatternStart := by
  intro i0 a0 i1 a1 d r s hd hr
  rw [exec_endMark, execEndMark_of_some _ _ _ _ hd, load_of_some hr]
  rfl

/-- Settles O36: PAT is the pattern change to PIDX + 1. -/
theorem patChangesToTheNextPattern : Obligations.PatChangesToTheNextPattern := by
  intro first r s hr
  rw [exec_pat, changePattern_of_some hr]
  rfl

/-- Settles O37: ENDLIB is the pattern change to pattern 0 at `Dir(0)`. -/
theorem endlibChangesToPatternZero : Obligations.EndlibChangesToPatternZero := by
  intro d r s hd hr
  rw [exec_endlib, execEndlib_of_some hd, changePattern_of_some hr]
  rfl

/-- Settles O40: each read stands alone in the part of the run that makes it. -/
theorem fetchOutsideTheTablesIsRefused : Obligations.FetchOutsideTheTablesIsRefused := by
  intro s n i0 a0 i1 a1 d hn
  refine ⟨seqStep_refused, fun hq hfc h => ?successor, fun hc h => ⟨?pressedRamp, ?pressedHold⟩,
    execEndMark_refused i0 a0 i1 a1, fun hd h => ?wrap, changePattern_refused, execEndlib_refused,
    fun hd h => ?endlib⟩
  case successor =>
    rw [exec_ramp, seqRun_ends hq hfc hn, rampStep_of_ne_zero hn]
    exact advance_refused h
  case pressedRamp =>
    rw [exec_ramp, seqRun_change hc, rampStep_of_ne_zero hn]
    exact selectNext_refused h
  case pressedHold =>
    rw [exec_hold, seqRun_change hc, rampStep_of_zero rfl]
    exact selectNext_refused h
  case wrap => exact (execEndMark_of_some i0 a0 i1 a1 hd).trans (load_refused h)
  case endlib => exact (execEndlib_of_some hd).trans (changePattern_refused h)

/-- Settles O31: the run without a pattern change ends in the END record's meaning, the run with one in the
meaning of the entry after PIDX. -/
theorem runReachesEndAndDirectory : Obligations.RunReachesEndAndDirectory := by
  refine ⟨fun n i0 a0 i1 a1 w s hn hq hfc hw hend => ?successor,
    fun n i0 a0 i1 a1 e j s hn hc he hj => ⟨?pressedRamp, ?pressedHold⟩⟩
  case successor =>
    have hadvance := advance_of_end (s := (quietSample (s.rampAdded ⟨a0, a1⟩)).fcDecremented)
      (readFrag_of_frags hw) hend
    rw [exec_ramp, seqRun_ends hq hfc hn, rampStep_of_ne_zero hn, decodeRecord_of_end hend, exec_endMark,
      hadvance]
    simp only [State.fcDecremented, quietSample_fc, State.rampAdded_fc, hfc]
    rfl
  case pressedRamp =>
    rw [exec_ramp, seqRun_change hc, rampStep_of_ne_zero hn]
    exact selectNext_of_decodeEntry he hj
  case pressedHold =>
    rw [exec_hold, seqRun_change hc, rampStep_of_zero rfl]
    exact selectNext_of_decodeEntry he hj

/-- A due run fetches the current record, decodes it and runs it (R111). -/
theorem step_of_fetch {s : State} {w : RecWord} (hw : configWf s.cfg = true) (hfp : s.fp = false)
    (hlat : s.lat = 0) (hfetch : s.cfg.frags[s.fptr]? = some w) :
    step s = andThen (exec (asCurrent (decodeRecord w)) s) (fun t => .next t.setPending) := by
  rw [step_run hw (runDue_iff.2 ⟨hfp, hlat⟩)]
  simp [seqStep, hfetch]

/-- Settles O30: a due run executes the decoded record, END as a RAMP; without one the step is a TICK. -/
theorem stepPerformsOneOperation : Obligations.StepPerformsOneOperation := by
  refine ⟨fun s w hw hfp hlat hfetch hreal => ?current, fun s w a b c d hw hfp hlat hfetch hend => ?ended,
    fun s hw hfp => ?pending, fun s hw hlat => ?running⟩
  case current =>
    rw [step_of_fetch hw hfp hlat hfetch, asCurrent_decodeRecord hreal]
    rfl
  case ended =>
    rw [step_of_fetch hw hfp hlat hfetch, hend]
    rfl
  case pending => exact step_tick hw (by simp [runDue, hfp])
  case running => exact step_tick hw (by simp [runDue, hlat])

end Sys2Proof.Machine
end

section
/-! The debouncer's three branches (R140 to R143), what a run and an element leave (R34), and the proofs of
O38, O39, O41, O42, O43, O48 and O53. -/

namespace Sys2Proof.Machine

/-- What a run without a pattern change leaves or counts down (R142, R148). -/
structure QuietFrame (s t : State) : Prop where
  pidx : t.pidx = s.pidx
  nv : t.nv = s.nv
  cd : t.cd = (quietSample s).cd
  btn : t.btn = s.btn.tail
  nsamp : t.nsamp = s.nsamp + 1

theorem quietFrame_counted (f : Record) (s : State) :
    QuietFrame s (quietSample (rampStep f s)).fcDecremented :=
  ⟨by simp, by simp, by simp, by simp, by simp⟩

theorem advance_quietFrame {s u t : State} (hu : QuietFrame s u) (h : advance u = .next t) :
    QuietFrame s t := by
  obtain ⟨hpidx, hnv, hcd, hbtn, hnsamp⟩ := hu
  obtain ⟨r, -, ⟨-, rfl⟩ | ⟨-, i, q, -, -, rfl⟩⟩ := advance_eq_next.1 h <;>
    exact ⟨hpidx, hnv, hcd, hbtn, hnsamp⟩

theorem seqRun_quietFrame {f : Record} {s t : State} (h : seqRun f s = .next t)
    (hq : changeDue s = false) : QuietFrame s t := by
  rcases seqRun_cases h with ⟨hc, -⟩ | ⟨-, -, rfl⟩ | ⟨-, -, -, hadv⟩
  · exact absurd hc (by simp [hq])
  · exact quietFrame_counted f s
  · exact advance_quietFrame (quietFrame_counted f s) hadv

theorem seqStep_quietFrame {s t : State} (h : seqStep s = .next t) (hq : changeDue s = false) :
    QuietFrame s t := by
  obtain ⟨r, u, -, hu, rfl⟩ := seqStep_eq_next.1 h
  obtain ⟨hpidx, hnv, hcd, hbtn, hnsamp⟩ := seqRun_quietFrame hu hq
  exact ⟨hpidx, hnv, hcd, hbtn, hnsamp⟩

theorem selectNext_frame {s t : State} (h : selectNext s = .next t) :
    t.fp = s.fp ∧ t.btn = s.btn ∧ t.nsamp = s.nsamp := by
  obtain ⟨p, i, r, -, rfl, -⟩ := selectNext_eq_next.1 h
  exact ⟨rfl, rfl, rfl⟩

theorem advance_frame {s t : State} (h : advance s = .next t) :
    t.fp = s.fp ∧ t.btn = s.btn ∧ t.nsamp = s.nsamp := by
  obtain ⟨r, -, ⟨-, rfl⟩ | ⟨-, i, q, -, -, rfl⟩⟩ := advance_eq_next.1 h <;>
    exact ⟨rfl, rfl, rfl⟩

/-- Every run takes one sample, and FP is set around it and not in it (R141, R111). -/
theorem seqRun_frame {f : Record} {s t : State} (h : seqRun f s = .next t) :
    t.fp = s.fp ∧ t.btn = s.btn.tail ∧ t.nsamp = s.nsamp + 1 := by
  rcases seqRun_cases h with ⟨-, hsel⟩ | ⟨-, -, rfl⟩ | ⟨-, -, -, hadv⟩
  · simpa using selectNext_frame hsel
  · simp
  · simpa using advance_frame hadv

/-- The store's one byte is written by a pattern change under PERSIST only (R145). -/
theorem read_persisted (s : State) (p : Byte) {a : Nat} (h : a ≠ s.cfg.nvAddr ∨ s.cfg.persist = false) :
    Memory.read (s.persisted p).nv a = Memory.read s.nv a := by
  cases hp : s.cfg.persist with
  | false => simp [hp]
  | true => simp [hp, Memory.read_write_of_ne p (h.resolve_right (by simp [hp]))]

theorem selectNext_read {s t : State} {a : Nat} (h : selectNext s = .next t)
    (ha : a ≠ s.cfg.nvAddr ∨ s.cfg.persist = false) : Memory.read t.nv a = Memory.read s.nv a := by
  obtain ⟨p, i, r, -, rfl, -⟩ := selectNext_eq_next.1 h
  exact read_persisted ((s.patternChosen p).loaded i r) p ha

theorem seqRun_read {f : Record} {s t : State} {a : Nat} (h : seqRun f s = .next t)
    (ha : a ≠ s.cfg.nvAddr ∨ s.cfg.persist = false ∨ changeDue s = false) :
    Memory.read t.nv a = Memory.read s.nv a := by
  cases hc : changeDue s with
  | false => rw [(seqRun_quietFrame h hc).nv]
  | true =>
    rw [seqRun_change hc] at h
    simpa using selectNext_read h (by simpa [hc] using ha)

/-- RAMP and HOLD are the two meanings that are a whole run. -/
theorem exec_eq_seqRun {i : Instr}
    (h : (∃ n a b c d, i = .ramp n a b c d) ∨ ∃ a b c d, i = .hold a b c d) (s : State) :
    ∃ f, exec i s = seqRun f s := by
  obtain ⟨n, a, b, c, d, rfl⟩ | ⟨a, b, c, d, rfl⟩ := h
  · exact ⟨_, exec_ramp n a b c d s⟩
  · exact ⟨_, exec_hold a b c d s⟩

/-- A run of a fragment that lasts for ever only counts (R116). -/
theorem seqRun_zero_quiet {f : Record} {s t : State} (h : seqRun f s = .next t) (hlen : f.len = 0#8)
    (hq : changeDue s = false) : t = (quietSample s).fcDecremented := by
  rw [seqRun_counts hq (.inr hlen), rampStep_of_zero hlen] at h
  exact (Host.Outcome.next.inj h).symm

/-- Settles O38: the tick side, FP, the samples and the store are each one lemma about a run. -/
theorem runFrame : Obligations.RunFrame := by
  intro i s t hi h
  obtain ⟨f, hf⟩ := exec_eq_seqRun hi s
  have hrun := hf ▸ h
  obtain ⟨hcfg, hcnt, hout, htgt, hlat, htimer⟩ := seqRun_same hrun
  obtain ⟨hfp, hbtn, hnsamp⟩ := seqRun_frame hrun
  refine ⟨hcfg, hcnt, hout, htgt, hfp, hlat, htimer, hbtn, hnsamp,
    fun hq => (seqRun_quietFrame hrun hq).pidx, ?hold, fun a => seqRun_read hrun⟩
  rintro hq ⟨a, b, c, d, rfl⟩
  rw [exec_hold] at h
  obtain rfl := seqRun_zero_quiet h rfl hq
  exact ⟨rfl, rfl⟩

/-- A pattern change leaves the tick context, FP and the samples, and of the store all but NV_ADDR's byte. -/
theorem changePattern_frame {p : Byte} {d : Nat} {s t : State} (h : changePattern p d s = .next t) :
    SameTickSide s t ∧ t.fp = s.fp ∧ t.btn = s.btn ∧ t.nsamp = s.nsamp ∧
      ∀ x, (x ≠ s.cfg.nvAddr ∨ s.cfg.persist = false) → Memory.read t.nv x = Memory.read s.nv x := by
  obtain ⟨r, -, rfl⟩ := changePattern_eq_next.1 h
  exact ⟨⟨rfl, rfl, rfl, rfl, rfl, rfl⟩, rfl, rfl, rfl,
    fun x => read_persisted ((s.patternChosen p).loaded d r) p⟩

/-- PAT and ENDLIB are one pattern change each (R143, R144). -/
theorem exec_entry_changes {i : Instr} {s t : State} (hi : (∃ first, i = .pat first) ∨ i = .endlib)
    (h : exec i s = .next t) : ∃ p d, changePattern p d s = .next t := by
  obtain ⟨first, rfl⟩ | rfl := hi
  · exact ⟨_, _, h⟩
  · cases hd : readDir s.cfg 0 with
    | none => simp [exec_endlib, execEndlib_refused hd] at h
    | some d => exact ⟨_, _, (execEndlib_of_some hd).symm.trans h⟩

/-- END is one LOAD (R117, R121). -/
theorem exec_endMark_loads {i0 a0 i1 a1 : Byte} {s t : State}
    (h : exec (.endMark i0 a0 i1 a1) s = .next t) : ∃ d r, t = s.loaded d r := by
  cases hd : readDir s.cfg s.pidx.toNat with
  | none => simp [exec_endMark, execEndMark_refused i0 a0 i1 a1 hd] at h
  | some d =>
    rw [exec_endMark, execEndMark_of_some i0 a0 i1 a1 hd] at h
    obtain ⟨r, -, ht⟩ := load_eq_next.1 h
    exact ⟨d, r, ht⟩

/-- Settles O39: END is one LOAD, PAT and ENDLIB are one pattern change each. -/
theorem elementFrame : Obligations.ElementFrame := by
  rintro i s t (⟨a, b, c, d, rfl⟩ | hentry) h
  · obtain ⟨d, r, rfl⟩ := exec_endMark_loads h
    simp
  · obtain ⟨p, d, hchange⟩ := exec_entry_changes hentry h
    obtain ⟨⟨hcfg, hcnt, hout, htgt, hlat, htimer⟩, hfp, hbtn, hnsamp, hread⟩ :=
      changePattern_frame hchange
    have hnotEnd : ¬ ∃ a b c d, i = .endMark a b c d := by
      rintro ⟨a, b, c, d, rfl⟩
      simp at hentry
    exact ⟨hcfg, hcnt, hout, htgt, hfp, hlat, htimer, hbtn, hnsamp, fun hend => absurd hend hnotEnd,
      fun x hx => hread x (by simpa only [hnotEnd, or_false] using hx)⟩

theorem changeDue_of_cd_ne_zero {s : State} (h : s.cd ≠ 0#8) : changeDue s = false := by
  simp [changeDue, h]

/-- Settles O41: with CD above 0 no change is due, and `quietSample` counts CD down. -/
theorem cooldownBranch : Obligations.CooldownBranch := by
  intro s hcd
  have hq := changeDue_of_cd_ne_zero hcd
  have hsample : quietSample s = s.sampleTaken.cdDecremented := by
    simp [quietSample, hcd, State.cdDecremented, State.sampleTaken]
  refine ⟨?debounce, fun i0 a0 i1 a1 => ?hold, fun n i0 a0 i1 a1 hn hfc => ?ramp⟩
  case debounce =>
    rw [debounce_quiet hq, hsample]
    rfl
  case hold =>
    rw [holdOnlyCounts i0 a0 i1 a1 s hq, if_neg hcd]
  case ramp =>
    rw [exec_ramp, seqRun_counts hq (.inl hfc), rampStep_of_ne_zero hn]
    simp [quietSample, hcd, State.rampAdded, State.fcDecremented, addPair]

/-- Settles O42: no change is due, and `quietSample` leaves CD at 0. -/
theorem idleBranch : Obligations.IdleBranch := by
  intro s hcd hb
  rw [debounce_quiet (by simp [changeDue, hb, pressed])]
  simp [quietSample, hcd]

/-- Settles O43: the run is the pressed branch, whose LOAD overwrites INT. -/
theorem pressedBranch : Obligations.PressedBranch := by
  rintro n i0 a0 i1 a1 p e d q s hcd hb he hd hq t rfl
  have hc : changeDue s = true := changeDue_iff.2 ⟨hcd, hb⟩
  have hrun (f : Record) : seqRun f s =
      .next ((((rampStep f s).sampleTaken.patternChosen p).loaded d q).persisted p) := by
    rw [seqRun_change hc]
    exact selectNext_eq_next.2 ⟨p, d, q, by simpa using hq, rfl, e, by simpa using he, by simpa using hd⟩
  constructor
  · rw [exec_ramp, hrun]
    unfold rampStep
    split <;> rfl
  · rw [exec_hold, hrun, rampStep_of_zero rfl]
    rfl

/-- Settles O48: a TICK writes neither, and a run without a pattern change leaves both. -/
theorem onlyAPressChangesThePattern : Obligations.OnlyAPressChangesThePattern := by
  intro s t h hne
  obtain ⟨-, ⟨hrun, hstep⟩ | ⟨-, rfl⟩⟩ := step_eq_next.1 h
  · refine ⟨hrun, changeDue_iff.1 (eq_true_of_ne_false fun hq => ?_)⟩
    have hframe := seqStep_quietFrame hstep hq
    exact hne.elim (· hframe.pidx) (· hframe.nv)
  · simp [tickStep] at hne

/-- Settles O53: a TICK writes neither FPTR nor INT, and a quiet run of a HOLD only counts. -/
theorem holdIsLeftOnlyByAPress : Obligations.HoldIsLeftOnlyByAPress := by
  intro s t r hr hlen h hne
  obtain ⟨-, ⟨hrun, hstep⟩ | ⟨-, rfl⟩⟩ := step_eq_next.1 h
  · refine ⟨hrun, eq_true_of_ne_false fun hq => ?_⟩
    obtain ⟨r', u, hr', hu, rfl⟩ := seqStep_eq_next.1 hstep
    obtain rfl := Option.some.inj (hr.symm.trans hr')
    obtain rfl := seqRun_zero_quiet hu hlen hq
    simp at hne
  · simp [tickStep] at hne

end Sys2Proof.Machine
end

section
/-! A pattern's first fragment, the pattern change and the successor on a well-formed library (R32, R78,
R144), and the proofs of O44, O46, O11 and O13. -/

namespace Sys2Proof.Machine

/-- FPTR names the first fragment of the pattern PIDX names, the record `q`, just loaded (R126, R144). -/
structure AtPatternStart (s : State) (q : Record) : Prop where
  dir : readDir s.cfg s.pidx.toNat = some s.fptr
  frag : readFrag s.cfg s.fptr = some q
  fc : s.fc = q.len
  int : s.int = q.init

/-- `configWf_library` for the NPAT at hand. -/
theorem configWf_patterns {c : Config} {n : Nat} (hw : configWf c = true) (hn : npat c = some n) :
    1 ≤ n ∧ n ≤ 255 ∧ c.frags.length ≤ nullFrag c.fidxW ∧
      ∀ p, p < n → ∃ d, readDir c p = some d ∧ patternWf c d = true ∧ d ≠ nullFrag c.fidxW := by
  obtain ⟨m, hm, h⟩ := configWf_library hw
  obtain rfl := Option.some.inj (hn.symm.trans hm)
  exact h

/-- A pattern's first record exists and is not END (W2, W4 of R78). -/
theorem first_record {c : Config} {n p : Nat} (hw : configWf c = true) (hn : npat c = some n)
    (hp : p < n) : ∃ d r, readDir c p = some d ∧ d ≠ nullFrag c.fidxW ∧ readFrag c d = some r ∧
      r.len ≠ endLen := by
  obtain ⟨-, -, -, hpatterns⟩ := configWf_patterns hw hn
  obtain ⟨d, hd, hpat, hreal⟩ := hpatterns p hp
  obtain ⟨⟨r, hr, hlen⟩, -⟩ := patternWf_iff.1 hpat
  exact ⟨d, r, hd, hreal, hr, hlen⟩

/-- On a well-formed library the pressed branch completes, at the next pattern's start (R144): the entry
after PIDX is a PAT entry, or the sentinel, which leads to pattern 0. -/
theorem selectNext_completes {s : State} {n : Nat} (hw : configWf s.cfg = true) (hn : npat s.cfg = some n)
    (hp : s.pidx.toNat < n) : ∃ t q, selectNext s = .next t ∧ AtPatternStart t q ∧
      t.pidx.toNat = (s.pidx.toNat + 1) % n ∧ t.cd = s.cfg.cooldown := by
  obtain ⟨hpos, h255, -, -⟩ := configWf_patterns hw hn
  have hnext : (s.pidx + 1#8).toNat = s.pidx.toNat + 1 := by bv_omega
  rcases Nat.lt_or_eq_of_le (Nat.succ_le_of_lt hp) with hlt | hlast
  · obtain ⟨d, r, hd, hreal, hr, -⟩ := first_record hw hn hlt
    rw [← Nat.add_one, ← hnext] at hd
    exact ⟨_, r, selectNext_eq_next.2 ⟨s.pidx + 1#8, d, r, hr, rfl, d, hd, .inl ⟨hreal, rfl, rfl⟩⟩,
      ⟨hd, hr, rfl, rfl⟩, hnext.trans (Nat.mod_eq_of_lt hlt).symm, rfl⟩
  · obtain ⟨d, r, hd, -, hr, -⟩ := first_record hw hn hpos
    have hsentinel : readDir s.cfg (s.pidx + 1#8).toNat = some (nullFrag s.cfg.fidxW) := by
      rw [hnext, ← Nat.succ_eq_add_one, hlast]
      exact (readDir_at hn).2
    refine ⟨_, r, selectNext_eq_next.2 ⟨0#8, d, r, hr, rfl, _, hsentinel, .inr ⟨rfl, rfl, hd⟩⟩,
      ⟨hd, hr, rfl, rfl⟩, ?_, rfl⟩
    rw [← Nat.succ_eq_add_one, hlast, Nat.mod_self]
    rfl

/-- A whole run with a pattern change, on a well-formed library (R143, R144). -/
theorem seqStep_change_completes {s : State} {n : Nat} {r : Record} (hw : configWf s.cfg = true)
    (hn : npat s.cfg = some n) (hp : s.pidx.toNat < n) (hc : changeDue s = true)
    (hr : readFrag s.cfg s.fptr = some r) : ∃ t q, seqStep s = .next t ∧ AtPatternStart t q ∧
      t.pidx.toNat = (s.pidx.toNat + 1) % n ∧ t.cd = s.cfg.cooldown := by
  obtain ⟨t, q, ht, ⟨hdir, hfrag, hfc, hint⟩, hpidx, hcd⟩ :=
    selectNext_completes (s := (rampStep r s).sampleTaken) (by simpa using hw) (by simpa using hn)
      (by simpa using hp)
  refine ⟨t.setPending, q, ?_, ⟨hdir, hfrag, hfc, hint⟩, by simpa using hpidx, by simpa using hcd⟩
  rw [seqStep_of_some hr, seqRun_change hc, ht, andThen_next]

/-- Settles O44: the run ends at the next pattern's start, and a run leaves TGT. -/
theorem nextPatternIsModulo : Obligations.NextPatternIsModulo := by
  rintro s n hw hn hp hc ⟨r, hr⟩
  obtain ⟨t, q, ht, hstart, hpidx, hcd⟩ := seqStep_change_completes hw hn hp hc hr
  have hsame := seqStep_same ht
  refine ⟨t, q, ht, hpidx, ?_, ?_, hstart.fc, hstart.int, hcd, hsame.tgt⟩ <;> rw [← hsame.cfg]
  · exact hstart.dir
  · exact hstart.frag

/-- `k` changes, from anywhere or (`k` = 0) from a pattern's first fragment, end at a first fragment. -/
theorem changes_complete {n : Nat} (k : Nat) {s : State} (hw : configWf s.cfg = true)
    (hn : npat s.cfg = some n) (hp : s.pidx.toNat < n) :
    ∃ t, changes k s = .next t ∧ t.cfg = s.cfg ∧ t.pidx.toNat = (s.pidx.toNat + k) % n ∧
      (1 ≤ k ∨ readDir s.cfg s.pidx.toNat = some s.fptr →
        readDir s.cfg t.pidx.toNat = some t.fptr) := by
  induction k generalizing s with
  | zero => exact ⟨s, rfl, rfl, (Nat.mod_eq_of_lt hp).symm, fun h => h.resolve_left (by omega)⟩
  | succ k ih =>
    obtain ⟨u, q, hu, hstart, hpidx, -⟩ := selectNext_completes hw hn hp
    have hcfg : u.cfg = s.cfg := (selectNext_same hu).cfg
    obtain ⟨t, ht, htcfg, htpidx, hdir⟩ := ih (s := u) (hcfg ▸ hw) (hcfg ▸ hn)
      (hpidx ▸ Nat.mod_lt _ (by omega))
    refine ⟨t, by rw [changes, hu, andThen_next, ht], htcfg.trans hcfg, ?_,
      fun _ => hcfg ▸ hdir (.inr hstart.dir)⟩
    rw [htpidx, hpidx, Nat.mod_add_mod, Nat.add_assoc, Nat.add_comm 1]

/-- Settles O46, by induction over the changes: each completes at the next pattern's start. -/
theorem patternsAreCycled : Obligations.PatternsAreCycled := by
  intro s n hw hn hp k
  obtain ⟨t, ht, -, hpidx, hdir⟩ := changes_complete k hw hn hp
  exact ⟨t, ht, hpidx, fun hk => hdir (.inl hk)⟩

theorem bootIndex_of_not_persist {s : State} (h : s.cfg.persist = false) : bootIndex s = 0#8 := by
  cases hn : npat s.cfg <;> simp [bootIndex, h, hn]

/-- RESET completes at the boot pattern's start (R211). -/
theorem powerOn_completes {s : State} {n : Nat} (hw : configWf s.cfg = true) (hn : npat s.cfg = some n) :
    ∃ d r, readDir s.cfg (bootIndex s).toNat = some d ∧ readFrag s.cfg d = some r ∧
      powerOn s = .next ((s.rebooted (bootIndex s)).loaded d r) := by
  obtain ⟨hpos, -⟩ := configWf_patterns hw hn
  obtain ⟨d, r, hd, -, hr, -⟩ := first_record hw hn (bootIndex_lt hn hpos)
  exact ⟨d, r, hd, hr, powerOn_eq_next.2 ⟨hw, d, r, hd, hr, rfl⟩⟩

/-- Settles O11: the boot index in R212's cases, and the LOAD of its pattern's first fragment. -/
theorem powerOnCells : Obligations.PowerOnCells := by
  intro s hw
  obtain ⟨n, hn, -⟩ := configWf_library hw
  obtain ⟨d, r, hd, hr, h⟩ := powerOn_completes hw hn
  exact ⟨n, bootIndex s, d, r, hn, bootIndex_of_not_persist, fun hp => bootIndex_persisted hp hn,
    fun _ => bootIndex_of_npat_le hn, hd, hr, h⟩

/-- Settles O13: the run and the RESET after it load the first fragment of one and the same pattern. -/
theorem persistedIndexRoundTrip : Obligations.PersistedIndexRoundTrip := by
  rintro s n hw hpersist hn hp hwf hc ⟨r, hr⟩
  obtain ⟨t, q, ht, hstart, -, -⟩ := seqStep_change_completes hw hn hp hc hr
  obtain ⟨-, -, hreset⟩ := patternChangeIsPersisted s t hwf ht
  obtain ⟨u, hu, hpidx⟩ := hreset hpersist hc hw ⟨n, hn, hp⟩
  obtain ⟨-, d, r', hd, hr', rfl⟩ := powerOn_eq_next.1 hu
  have hboot : bootIndex t = t.pidx := hpidx
  obtain rfl : d = t.fptr := Option.some.inj (hd.symm.trans (hboot ▸ hstart.dir))
  obtain rfl := Option.some.inj (hr'.symm.trans hstart.frag)
  exact ⟨t, _, ht, hu, hpidx, rfl, hstart.fc.symm, hstart.int.symm⟩

end Sys2Proof.Machine
end

section
/-! A run keeps the position and the frame count and completes (R33 (ii) to (iv)), and the proofs of O55,
O9, O56, O57 and O58. -/

namespace Sys2Proof.Machine

/-! A firing of the timer: the TICK's cells, and `lat` one less before it (R90; log 6). -/

@[simp] theorem tickStep_cfg (s : State) : (tickStep s).cfg = s.cfg := tick_cfg _
@[simp] theorem tickStep_int (s : State) : (tickStep s).int = s.int := tick_int _
@[simp] theorem tickStep_fc (s : State) : (tickStep s).fc = s.fc := tick_fc _
@[simp] theorem tickStep_pidx (s : State) : (tickStep s).pidx = s.pidx := tick_pidx _
@[simp] theorem tickStep_fptr (s : State) : (tickStep s).fptr = s.fptr := tick_fptr _
@[simp] theorem tickStep_cd (s : State) : (tickStep s).cd = s.cd := tick_cd _
@[simp] theorem tickStep_nv (s : State) : (tickStep s).nv = s.nv := tick_nv _
@[simp] theorem tickStep_timer (s : State) : (tickStep s).timer = tmrReload s.cfg := tick_timer _

theorem tickStep_fp (s : State) : (tickStep s).fp = if s.cnt = 1#8 then false else s.fp := tick_fp _

theorem tickStep_tgt (s : State) :
    (tickStep s).tgt = if s.cnt = 1#8 ∧ s.fp = true then s.int else s.tgt := tick_tgt _

theorem tickStep_lat (s : State) :
    (tickStep s).lat = if s.cnt = 1#8 ∧ s.fp = true then s.cfg.seqLat else s.lat - 1 := tick_lat _

/-- The count after a TICK, in numbers (R93). -/
theorem tick_cnt_toNat {s : State} (hpos : 1 ≤ s.cnt.toNat) :
    (tick s).cnt.toNat = if s.cnt = 1#8 then s.cfg.limit.toNat else s.cnt.toNat - 1 := by
  rw [tick_cnt, apply_ite BitVec.toNat, byte_toNat_sub_one hpos]

theorem tickStep_cnt_toNat {s : State} (hpos : 1 ≤ s.cnt.toNat) :
    (tickStep s).cnt.toNat = if s.cnt = 1#8 then s.cfg.limit.toNat else s.cnt.toNat - 1 :=
  tick_cnt_toNat (s := { s with lat := s.lat - 1 }) hpos

/-! The position and the frame count. -/

theorem positionOk_congr {s t : State} (hcfg : t.cfg = s.cfg) (hpidx : t.pidx = s.pidx)
    (hfptr : t.fptr = s.fptr) (h : positionOk s) : positionOk t := by
  simpa only [positionOk, hcfg, hpidx, hfptr] using h

theorem frameCountOk_congr {s t : State} (hcfg : t.cfg = s.cfg) (hfptr : t.fptr = s.fptr)
    (hfc : t.fc = s.fc) (h : frameCountOk s) : frameCountOk t := by
  simpa only [frameCountOk, hcfg, hfptr, hfc] using h

/-- A RAMP just loaded has its whole length to go. -/
theorem frameCountOk_of_fc_eq_len {s : State} {q : Record} (hq : readFrag s.cfg s.fptr = some q)
    (hfc : s.fc = q.len) : frameCountOk s := by
  intro r hr hramp
  obtain rfl := Option.some.inj (hq.symm.trans hr)
  exact ⟨hfc ▸ byte_pos_iff.1 hramp.1, hfc ▸ le_rfl⟩

theorem AtPatternStart.position {s : State} {q : Record} {n : Nat} (h : AtPatternStart s q)
    (hw : configWf s.cfg = true) (hn : npat s.cfg = some n) (hp : s.pidx.toNat < n) : positionOk s := by
  obtain ⟨d, r, hd, -, hr, hreal⟩ := first_record hw hn hp
  obtain rfl := Option.some.inj (h.dir.symm.trans hd)
  exact ⟨n, s.fptr, hn, hp, hd, le_rfl, by omega, r, hr, hreal⟩

theorem AtPatternStart.frameCount {s : State} {q : Record} (h : AtPatternStart s q) : frameCountOk s :=
  frameCountOk_of_fc_eq_len h.frag h.fc

/-- A record below NULL_FRAG has an index to its right (R32). -/
theorem nextFrag_eq_succ {s : State} {r : Record} (hw : configWf s.cfg = true)
    (hr : readFrag s.cfg s.fptr = some r) : nextFrag s = s.fptr + 1 := by
  obtain ⟨n, -, -, -, hsize, -⟩ := configWf_library hw
  have hlt := readFrag_lt hr
  have hnull := nullFrag_lt s.cfg.fidxW
  exact Nat.mod_eq_of_lt (by omega)

/-- Inside a well-formed pattern a RAMP stands before the record that closes it (W3 of R78). -/
theorem successor_exists {c : Config} {d i : Nat} {f : Record} (hpat : patternWf c d = true)
    (hbody : inBody c d i) (hf : readFrag c i = some f) (hramp : isRamp f) :
    ∃ q, readFrag c (i + 1) = some q := by
  obtain ⟨-, t, hdt, hbefore, r, hr, hcloses⟩ := patternWf_iff.1 hpat
  obtain ⟨hdi, hramps, -⟩ := hbody
  have hnotRamp : ¬ isRamp r := fun h => hcloses.elim h.1 h.2
  have hit : i < t := by
    rcases Nat.lt_trichotomy i t with hlt | rfl | hgt
    · exact hlt
    · exact absurd (Option.some.inj (hf.symm.trans hr) ▸ hramp) hnotRamp
    · obtain ⟨r', hr', hramp'⟩ := hramps t hdt hgt
      exact absurd (Option.some.inj (hr'.symm.trans hr) ▸ hramp') hnotRamp
  rcases Nat.lt_or_eq_of_le (Nat.succ_le_of_lt hit) with hlt | rfl
  · obtain ⟨q, hq, -⟩ := hbefore (i + 1) (by omega) hlt
    exact ⟨q, hq⟩
  · exact ⟨r, hr⟩

/-- Steps 6 and 7 complete inside a well-formed pattern, and stay inside it (R117, R118). -/
theorem advance_completes {s : State} {f : Record} (hw : configWf s.cfg = true) (hpos : positionOk s)
    (hf : readFrag s.cfg s.fptr = some f) (hramp : isRamp f) :
    ∃ t, advance s = .next t ∧ positionOk t ∧ frameCountOk t := by
  obtain ⟨n, d, hn, hp, hd, hbody⟩ := hpos
  obtain ⟨-, -, -, hpatterns⟩ := configWf_patterns hw hn
  obtain ⟨d', hd', hpat, -⟩ := hpatterns _ hp
  obtain rfl := Option.some.inj (hd.symm.trans hd')
  have hnext := nextFrag_eq_succ hw hf
  obtain ⟨q, hq⟩ := successor_exists hpat hbody hf hramp
  rw [← hnext] at hq
  by_cases hend : q.len = endLen
  · obtain ⟨⟨r, hr, -⟩, -⟩ := patternWf_iff.1 hpat
    have hstart : AtPatternStart (s.loaded d r) r := ⟨hd, hr, rfl, rfl⟩
    exact ⟨s.loaded d r, advance_loads hq (.inr ⟨hend, hd⟩) hr, hstart.position hw hn hp,
      hstart.frameCount⟩
  · obtain ⟨hle, hramps, -⟩ := hbody
    refine ⟨s.loaded (nextFrag s) q, advance_loads hq (.inl ⟨hend, rfl⟩) hq,
      ⟨n, d, hn, hp, hd, ?_, fun j hdj hj => ?_, q, hq, hend⟩, frameCountOk_of_fc_eq_len hq rfl⟩
    · simp only [State.loaded_fptr]
      omega
    · simp only [State.loaded_fptr, hnext] at hj
      rcases Nat.lt_succ_iff_lt_or_eq.1 hj with hlt | rfl
      · exact hramps j hdj hlt
      · exact ⟨f, hf, hramp⟩

/-- A counted frame keeps R33 (iv): FC of a RAMP does not reach 0. -/
theorem frameCountOk_counted {s t : State} {f : Record} (hf : readFrag s.cfg s.fptr = some f)
    (hcount : frameCountOk s) (hne : s.fc ≠ 1#8 ∨ f.len = 0#8) (hcfg : t.cfg = s.cfg)
    (hfptr : t.fptr = s.fptr) (hfc : t.fc = s.fc - 1#8) : frameCountOk t := by
  intro r hr hramp
  rw [hcfg, hfptr] at hr
  obtain ⟨hlow, hhigh⟩ := hcount r hr hramp
  obtain rfl := Option.some.inj (hf.symm.trans hr)
  have hfcne : s.fc.toNat ≠ 1 := fun h => hne.elim (· (byte_eq_one_iff.2 h)) hramp.1
  rw [hfc, byte_toNat_sub_one hlow]
  omega

theorem positionOk.frag {s : State} (h : positionOk s) :
    ∃ f, readFrag s.cfg s.fptr = some f ∧ f.len ≠ endLen := by
  obtain ⟨n, d, -, -, -, -, -, hf⟩ := h
  exact hf

/-- From a sound position a run completes, in a sound position (R33 (ii) to (iv), R122). -/
theorem seqStep_completes {s : State} (hw : configWf s.cfg = true) (hpos : positionOk s)
    (hcount : frameCountOk s) : ∃ t, seqStep s = .next t ∧ positionOk t ∧ frameCountOk t := by
  obtain ⟨f, hf, hreal⟩ := hpos.frag
  cases hc : changeDue s with
  | true =>
    obtain ⟨n, d, hn, hp, -⟩ := hpos
    obtain ⟨t, q, ht, hstart, hpidx, -⟩ := seqStep_change_completes hw hn hp hc hf
    have hcfg := (seqStep_same ht).cfg
    exact ⟨t, ht, hstart.position (hcfg ▸ hw) (hcfg ▸ hn) (hpidx ▸ Nat.mod_lt _ (by omega)),
      hstart.frameCount⟩
  | false =>
    have hrun : ∃ t, seqRun f s = .next t ∧ positionOk t ∧ frameCountOk t := by
      by_cases hcounts : s.fc ≠ 1#8 ∨ f.len = 0#8
      · exact ⟨_, seqRun_counts hc hcounts, positionOk_congr (by simp) (by simp) (by simp) hpos,
          frameCountOk_counted hf hcount hcounts (by simp) (by simp) (by simp)⟩
      · obtain ⟨hfc, hlen⟩ : s.fc = 1#8 ∧ f.len ≠ 0#8 := by simpa using hcounts
        rw [seqRun_ends hc hfc hlen]
        exact advance_completes (by simpa using hw)
          (positionOk_congr (by simp) (by simp) (by simp) hpos) (by simpa using hf) ⟨hlen, hreal⟩
    obtain ⟨t, ht, htpos, htcount⟩ := hrun
    exact ⟨t.setPending, by rw [seqStep_of_some hf, ht, andThen_next],
      positionOk_congr rfl rfl rfl htpos, frameCountOk_congr rfl rfl rfl htcount⟩

/-- Settles O55: a due run completes from a sound position, and a TICK is total. -/
theorem engineNeverStops : Obligations.EngineNeverStops := by
  intro s hinv hw
  cases hrun : runDue s with
  | true =>
    obtain ⟨t, ht, -⟩ := seqStep_completes hw (hinv.position hw) (hinv.frameCount hw)
    exact ⟨t, (step_run hw hrun).trans ht⟩
  | false => exact ⟨_, step_tick hw hrun⟩

/-- Settles O9: neither a run nor a TICK writes `cfg`. -/
theorem configurationIsConstant : Obligations.ConfigurationIsConstant := by
  intro s t h
  obtain ⟨-, ⟨-, hrun⟩ | ⟨-, rfl⟩⟩ := step_eq_next.1 h
  · exact (seqStep_same hrun).cfg
  · exact tickStep_cfg s

/-- R33 (v) through a run: a pattern change sets CD to COOLDOWN, every other run lowers it. -/
theorem seqStep_cd_le {s t : State} (h : seqStep s = .next t)
    (hcd : s.cd.toNat ≤ s.cfg.cooldown.toNat) : t.cd.toNat ≤ s.cfg.cooldown.toNat := by
  cases hc : changeDue s with
  | true =>
    obtain ⟨r, u, hu, rfl⟩ := seqStep_change h hc
    obtain ⟨p, i, q, -, rfl, -⟩ := selectNext_eq_next.1 hu
    simp
  | false =>
    rw [(seqStep_quietFrame h hc).cd, quietSample_cd_toNat]
    omega

theorem seqStep_nv_wf {s t : State} (h : seqStep s = .next t) (hwf : Memory.wf s.nv = true) :
    Memory.wf t.nv = true := by
  cases hc : changeDue s with
  | true =>
    rw [seqStep_nv_of_change h hc]
    exact Memory.wf_persisted hwf t.pidx
  | false => rwa [(seqStep_quietFrame h hc).nv]

/-- A due run keeps the invariant. -/
theorem seqStep_keeps_inv {s t : State} (hinv : Inv s) (hw : configWf s.cfg = true)
    (hdue : runDue s = true) (h : seqStep s = .next t) : Inv t := by
  obtain ⟨hcfg, hcnt, -, -, hlat, htimer⟩ := seqStep_same h
  obtain ⟨u, hu, hpos, hcount⟩ := seqStep_completes hw (hinv.position hw) (hinv.frameCount hw)
  obtain rfl := Host.Outcome.next.inj (hu.symm.trans h)
  exact {
    cntPos := hcnt ▸ hinv.cntPos
    cntLimit := by rw [hcnt, hcfg]; exact hinv.cntLimit
    cdLimit := by rw [hcfg]; exact seqStep_cd_le h hinv.cdLimit
    nvCanonical := seqStep_nv_wf h hinv.nvCanonical
    idle := fun _ => hlat.trans (runDue_iff.1 hdue).2
    inTime := fun hfp => by simp [seqStep_fp h] at hfp
    timerConst := by rw [htimer, hcfg]; exact hinv.timerConst
    position := fun _ => hpos
    frameCount := fun _ => hcount }

/-- A run in progress stays ahead of the boundary: at the boundary none is, as it would be due; the boundary
starts one of SEQ_LAT ticks, below L; between boundaries both counts go down (R163). -/
theorem tickStep_inTime {s : State} (hinv : Inv s) (hw : configWf s.cfg = true) (hdue : runDue s = false)
    (hfp : (tickStep s).fp = false) : (tickStep s).lat < (tickStep s).cnt.toNat := by
  obtain ⟨-, -, -, hseqLat⟩ := configWf_params hw
  have hbusy : s.fp = false → s.lat ≠ 0 ∧ s.lat < s.cnt.toNat := fun h =>
    ⟨fun h0 => by simp [runDue, h, h0] at hdue, hinv.inTime h⟩
  rw [tickStep_lat, tickStep_cnt_toNat hinv.cntPos]
  by_cases hone : s.cnt = 1#8
  · cases hs : s.fp with
    | true => simpa [hone] using hseqLat
    | false =>
      obtain ⟨hpos, hlt⟩ := hbusy hs
      simp only [hone, BitVec.toNat_ofNat] at hlt
      omega
  · obtain ⟨hpos, hlt⟩ := hbusy (by simpa [tickStep_fp, hone] using hfp)
    simp only [hone, false_and, if_false]
    omega

/-- A TICK that comes while no run is due keeps the invariant. -/
theorem tickStep_keeps_inv {s : State} (hinv : Inv s) (hw : configWf s.cfg = true)
    (hdue : runDue s = false) : Inv (tickStep s) := by
  obtain ⟨-, hlimit, -, -⟩ := configWf_params hw
  have hpos := hinv.cntPos
  have hle := hinv.cntLimit
  have hcnt : 1 ≤ (tickStep s).cnt.toNat ∧ (tickStep s).cnt.toNat ≤ s.cfg.limit.toNat := by
    rw [tickStep_cnt_toNat hpos]
    by_cases hone : s.cnt = 1#8
    · simp [hone, hlimit]
    · have := mt byte_eq_one_iff.2 hone
      simp only [hone, if_false]
      omega
  exact {
    cntPos := hcnt.1
    cntLimit := by simpa using hcnt.2
    cdLimit := by simpa using hinv.cdLimit
    nvCanonical := by simpa using hinv.nvCanonical
    idle := fun hfp => by
      obtain ⟨hone, hs⟩ : s.cnt ≠ 1#8 ∧ s.fp = true := by simpa [tickStep_fp] using hfp
      simp [tickStep_lat, hone, hinv.idle hs]
    inTime := tickStep_inTime hinv hw hdue
    timerConst := by simp
    position := fun _ => positionOk_congr (by simp) (by simp) (by simp) (hinv.position (by simpa using hw))
    frameCount := fun _ => frameCountOk_congr (by simp) (by simp) (by simp)
      (hinv.frameCount (by simpa using hw)) }

/-- Settles O56: a step is a due run or a TICK, and each keeps the invariant. -/
theorem stepKeepsTheInvariant : Obligations.StepKeepsTheInvariant := by
  intro s t hinv h
  obtain ⟨hw, ⟨hdue, hrun⟩ | ⟨hdue, rfl⟩⟩ := step_eq_next.1 h
  · exact seqStep_keeps_inv hinv hw hdue hrun
  · exact tickStep_keeps_inv hinv hw hdue

/-- Settles O57: the library of `State.reset` is empty, so its configuration asks for no position. -/
theorem resetMeetsTheInvariant : Obligations.ResetMeetsTheInvariant where
  cntPos := by decide
  cntLimit := by decide
  cdLimit := by decide
  nvCanonical := rfl
  idle _ := rfl
  inTime h := by cases h
  timerConst := by decide
  position h := by cases h
  frameCount h := by cases h

/-- Settles O58: RESET ends at the boot pattern's start, with the reset values in the other cells. -/
theorem powerOnMeetsTheInvariant : Obligations.PowerOnMeetsTheInvariant := by
  intro s hw hwf
  obtain ⟨n, hn, hpos, -⟩ := configWf_library hw
  obtain ⟨-, hlimit, -, -⟩ := configWf_params hw
  obtain ⟨d, r, hd, hr, h⟩ := powerOn_completes hw hn
  have hstart : AtPatternStart ((s.rebooted (bootIndex s)).loaded d r) r := ⟨hd, hr, rfl, rfl⟩
  exact ⟨_, h, {
    cntPos := hlimit
    cntLimit := le_rfl
    cdLimit := by simp
    nvCanonical := hwf
    idle := fun _ => rfl
    inTime := fun hfp => by cases hfp
    timerConst := rfl
    position := fun _ => hstart.position hw hn (bootIndex_lt hn hpos)
    frameCount := fun _ => hstart.frameCount }⟩

end Sys2Proof.Machine
end

section
/-! Several TICKs up to and at the boundary (R91 to R102), and the proofs of O15, O17 to O25, O29 and O60. -/

namespace Sys2Proof.Machine

theorem byte_ne_one {b : Byte} (h : 2 ≤ b.toNat) : b ≠ 1#8 := by bv_omega

theorem atBoundary_eq_false {s : State} (h : s.cnt ≠ 1#8) : atBoundary s = false :=
  Bool.eq_false_iff.2 fun hb => h (atBoundary_iff.1 hb)

/-- Settles O15: the TICK's comparison, and a run writes no cell of the tick context. -/
theorem pinsCompareTargetWithCount : Obligations.PinsCompareTargetWithCount := by
  refine ⟨fun s c => ⟨fun hlt => ?high, fun hle => ?low⟩, fun s t h => (seqStep_same h).out⟩
  case high => rw [tick_out_get, gtU_eq_one.2 hlt]
  case low => rw [tick_out_get, gtU, if_neg (Nat.not_lt.2 hle)]

/-- Settles O17: the ordinary TICK, and `frameBoundary` with FP = 1 and with FP = 0. -/
theorem tickResult : Obligations.TickResult := by
  intro s
  refine ⟨fun hne => ?ordinary, fun hone hfp => ?published, fun hone hfp => ?overrun⟩
  case ordinary =>
    rw [tick_ordinary (atBoundary_eq_false hne)]
    rfl
  case published =>
    rw [tick_boundary (atBoundary_iff.2 hone), frameBoundary, if_pos (by simpa using hfp)]
    rfl
  case overrun =>
    rw [tick_boundary (atBoundary_iff.2 hone), frameBoundary, if_neg (by simp [hfp])]
    rfl

/-- Settles O22: every TICK hands out `tmrReload`, a byte. -/
theorem timerReloadConstant : Obligations.TimerReloadConstant := by
  intro s _
  rw [tick_timer, tmrReload, BitVec.toNat_ofNat]

/-- Settles O29: at the count 1 a run in progress would have 0 ticks to come, and so be due. -/
theorem noOverrun : Obligations.NoOverrun := by
  intro s t hinv _ hdue hone
  refine eq_true_of_ne_false fun hfp => ?_
  have htime := hinv.inTime hfp
  simp only [hone, BitVec.toNat_ofNat] at htime
  have hlat : s.lat = 0 := by omega
  simp [runDue, hfp, hlat] at hdue

/-- Settles O60: each counter is a byte, and its `- 1` is `+ 255` modulo 256. -/
theorem arithmeticIsModulo256 : Obligations.ArithmeticIsModulo256 := by
  have hsub (b : Byte) : (b - 1#8).toNat = (b.toNat + 255) % 256 := by bv_omega
  refine fun s inc c => ⟨?add, hsub s.fc, hsub s.cd, fun h => ?count⟩
  case add => cases c <;> exact BitVec.toNat_add _ _
  case count =>
    rw [tick_ordinary h]
    exact hsub s.cnt

/-- Settles O23: only the boundary TICK with FP = 1 writes TGT, and the port write comes before it. -/
theorem targetsChangeOnlyAtABoundary : Obligations.TargetsChangeOnlyAtABoundary := by
  intro s t h hne
  obtain ⟨-, ⟨-, hrun⟩ | ⟨hdue, rfl⟩⟩ := step_eq_next.1 h
  · exact absurd (seqStep_same hrun).tgt hne
  · rw [tickStep_tgt] at hne
    obtain ⟨hone, hfp⟩ : s.cnt = 1#8 ∧ s.fp = true := Classical.not_not.1 fun hb => hne (if_neg hb)
    exact ⟨hdue, hone, hfp, by simp [tickStep_tgt, hone, hfp], by simp [tickStep_fp, hone],
      tick_out_get { s with lat := s.lat - 1 }⟩

/-- Settles O24: a run leaves FP = 1, and a TICK can only clear it, at a boundary, where it publishes. -/
theorem pendingFlagHasTwoWriters : Obligations.PendingFlagHasTwoWriters := by
  intro s t h
  obtain ⟨-, ⟨hdue, hrun⟩ | ⟨-, rfl⟩⟩ := step_eq_next.1 h
  · have hset := seqStep_fp hrun
    exact ⟨fun _ hclear => by simp [hset] at hclear, fun _ _ => ⟨(runDue_iff.1 hdue).2, hrun⟩⟩
  · constructor
    · intro hfp hclear
      have hone : s.cnt = 1#8 := by simpa [tickStep_fp, hfp] using hclear
      exact ⟨hone, by simp [tickStep_tgt, hone, hfp]⟩
    · intro hfp hset
      simp [tickStep_fp, hfp] at hset

/-- Before the boundary TICKs only count down (R94, R101). -/
theorem ticks_before_boundary {n : Nat} {s : State} (h : n < s.cnt.toNat) :
    (ticks n s).cnt.toNat = s.cnt.toNat - n ∧ (ticks n s).tgt = s.tgt ∧ (ticks n s).fp = s.fp ∧
      (ticks n s).lat = s.lat := by
  induction n with
  | zero => exact ⟨rfl, rfl, rfl, rfl⟩
  | succ n ih =>
    obtain ⟨hcnt, htgt, hfp, hlat⟩ := ih (by omega)
    have hne : (ticks n s).cnt ≠ 1#8 := byte_ne_one (by omega)
    rw [ticks_succ]
    refine ⟨?_, by simp [tick_tgt, hne, htgt], by simp [tick_fp, hne, hfp], by simp [tick_lat, hne, hlat]⟩
    rw [tick_cnt_toNat (by omega), if_neg hne]
    omega

/-- The TICK that finds the count 1: as many TICKs before it as the count says, less one. -/
theorem ticks_to_boundary {s : State} (h : s.cnt ≠ 0#8) :
    ticks s.cnt.toNat s = tick (ticks (s.cnt.toNat - 1) s) ∧ (ticks (s.cnt.toNat - 1) s).cnt = 1#8 := by
  have hpos := byte_pos_iff.1 h
  obtain ⟨hcnt, -⟩ := ticks_before_boundary (n := s.cnt.toNat - 1) (s := s) (by omega)
  refine ⟨?_, byte_eq_one_iff.2 (by omega)⟩
  rw [← ticks_succ, Nat.sub_add_cancel hpos]

/-- Settles O18: the TICKs before the boundary, the boundary TICK, and the one from 0. -/
theorem countdownFromAnyCount : Obligations.CountdownFromAnyCount := by
  intro s
  refine ⟨fun n hn => ?countdown, fun hne => ?reload, fun hzero => ?fromZero⟩
  case countdown =>
    obtain ⟨hcnt, htgt, -⟩ := ticks_before_boundary hn
    exact ⟨hcnt, htgt⟩
  case reload =>
    obtain ⟨hlast, hone⟩ := ticks_to_boundary hne
    rw [hlast, tick_cnt, if_pos hone, ticks_cfg]
  case fromZero =>
    have hne : s.cnt ≠ 1#8 := by simp [hzero]
    exact ⟨by simp [tick_cnt, hzero], by simp [tick_fp, hne], by simp [tick_tgt, hne]⟩

/-- Settles O19, by induction over the ticks: n mod L rises by 1, or goes from L - 1 to 0 at the boundary. -/
theorem counterSequence : Obligations.CounterSequence := by
  intro s n hfull hne
  have hlimit : 1 ≤ s.cfg.limit.toNat := byte_pos_iff.1 (hfull ▸ hne)
  induction n with
  | zero => simp [ticks, hfull]
  | succ n ih =>
    have hmod := Nat.mod_lt n hlimit
    rw [ticks_succ, tick_cnt_toNat (by omega), ticks_cfg]
    by_cases hone : (ticks n s).cnt = 1#8
    · have hlast : n % s.cfg.limit.toNat + 1 = s.cfg.limit.toNat := by
        have := byte_eq_one_iff.1 hone
        omega
      rw [if_pos hone, ← Nat.mod_add_mod, hlast, Nat.mod_self, Nat.sub_zero]
    · have hrest : n % s.cfg.limit.toNat + 1 < s.cfg.limit.toNat := by
        have := mt byte_eq_one_iff.2 hone
        omega
      rw [if_neg hone, ← Nat.mod_add_mod, Nat.mod_eq_of_lt hrest]
      omega

/-- From any count down to the boundary, channel c is high while the count is below its target (R97). -/
theorem highCount_to_boundary (c : Channel) (n : Nat) {s : State} (hn : s.cnt.toNat = n) :
    highCount c n s = min (max (s.tgt.get c).toNat 1 - 1) n := by
  induction n generalizing s with
  | zero => simp [highCount]
  | succ n ih =>
    have hrest : highCount c n (tick s) = min (max (s.tgt.get c).toNat 1 - 1) n := by
      cases n with
      | zero => simp [highCount]
      | succ n =>
        have hne : s.cnt ≠ 1#8 := byte_ne_one (by omega)
        have htgt : (tick s).tgt = s.tgt := by simp [tick_tgt, hne]
        rw [ih (by rw [tick_cnt_toNat (by omega), if_neg hne]; omega), htgt]
    rw [highCount, tick_out_get, gtU_toNat, hrest, hn]
    split <;> omega

/-- Settles O20: a window starts at the count L. -/
theorem highTicksPerWindow : Obligations.HighTicksPerWindow :=
  fun _ c hfull _ => highCount_to_boundary c _ (congrArg BitVec.toNat hfull)

/-- Settles O21: tick j compares the target with L - (j - 1). -/
theorem highTicksAreTheLast : Obligations.HighTicksAreTheLast := by
  intro s c j hfull hj hle
  obtain ⟨n, rfl⟩ : ∃ n, j = n + 1 := ⟨j - 1, by omega⟩
  obtain ⟨hcnt, htgt, -⟩ := ticks_before_boundary (n := n) (s := s) (by rw [hfull]; omega)
  rw [ticks_succ, tick_out_get, gtU_eq_one, hcnt, htgt, hfull]
  omega

/-- One TICK's pins and count come from CNT, TGT and L alone (R91, R93). -/
theorem tick_out_cnt_congr {s u : State} (hcnt : s.cnt = u.cnt) (htgt : s.tgt = u.tgt)
    (hlimit : s.cfg.limit = u.cfg.limit) :
    (tick s).out = (tick u).out ∧ (tick s).cnt = (tick u).cnt := by
  simp [outBits, tick_cnt, hcnt, htgt, hlimit]

/-- Settles O25, by induction over the ticks: each TICK but the last finds a count above 1, leaves the
targets, and so keeps the two states in step. -/
theorem pinsIgnoreTheFrameContext : Obligations.PinsIgnoreTheFrameContext := by
  intro s u n hcnt htgt hlimit h1 hn
  induction n, h1 using Nat.le_induction generalizing s u with
  | base => exact tick_out_cnt_congr hcnt htgt hlimit
  | succ n h1 ih =>
    have hne : s.cnt ≠ 1#8 := byte_ne_one (by omega)
    have hne' : u.cnt ≠ 1#8 := hcnt ▸ hne
    refine ih (tick s) (tick u) (tick_out_cnt_congr hcnt htgt hlimit).2
      (by simp [tick_tgt, hne, hne', htgt]) (by simpa using hlimit) ?_
    rw [tick_cnt_toNat (by omega), if_neg hne]
    omega

end Sys2Proof.Machine
end

section
/-! Steps that are all TICKs, the run that commutes with them, whole windows, and the proofs of O14, O26, O27
and O28. -/

namespace Sys2Proof.Machine

/-- Only a publishing TICK writes `lat`, and none reads it (log 6). -/
theorem tick_with_lat {s : State} (lat : Nat) (h : ¬ (s.cnt = 1#8 ∧ s.fp = true)) :
    tick { s with lat := lat } = { tick s with lat := lat } := by
  by_cases hone : s.cnt = 1#8
  · have hfp : s.fp = false := by simpa [hone] using h
    rw [(tickResult s).2.2 hone hfp]
    exact (tickResult { s with lat := lat }).2.2 hone hfp
  · rw [(tickResult s).1 hone]
    exact (tickResult { s with lat := lat }).1 hone

/-- Up to the boundary, and while no run is due, steps are TICKs that count `lat` down. -/
theorem steps_eq_ticks {n : Nat} {s : State} (hw : configWf s.cfg = true)
    (hidle : s.fp = true ∨ n ≤ s.lat) (hn : n ≤ s.cnt.toNat) :
    steps n s = .next (ticks n { s with lat := s.lat - n }) := by
  induction n generalizing s with
  | zero => rfl
  | succ n ih =>
    have hdue : runDue s = false := Bool.eq_false_iff.2 fun hd => by
      obtain ⟨hfp, hlat⟩ := runDue_iff.1 hd
      rcases hidle with h | h
      · simp [hfp] at h
      · omega
    rw [steps, step_tick hw hdue, andThen_next]
    cases n with
    | zero => rfl
    | succ n =>
      have hne : s.cnt ≠ 1#8 := byte_ne_one (by omega)
      have hlat : (tickStep s).lat = s.lat - 1 := by simp [tickStep_lat, hne]
      have hfp : (tickStep s).fp = s.fp := by simp [tickStep_fp, hne]
      rw [ih (by simpa using hw) (by rw [hfp, hlat]; exact hidle.imp id (by omega))
        (by rw [tickStep_cnt_toNat (by omega), if_neg hne]; omega), hlat, tickStep,
        ← tick_with_lat _ (by simp [hne]), Nat.sub_sub, Nat.add_comm 1]
      rfl

/-- With no run in progress (FP = 1, `lat` = 0) steps up to the boundary are just TICKs. -/
theorem steps_eq_ticks_of_pending {n : Nat} {s : State} (hw : configWf s.cfg = true) (hfp : s.fp = true)
    (hlat : s.lat = 0) (hn : n ≤ s.cnt.toNat) : steps n s = .next (ticks n s) := by
  obtain ⟨⟩ := s
  subst hlat
  simpa using steps_eq_ticks hw (.inl hfp) hn

/-- What no TICK writes: the cells of the frame context, the store and the samples (R34). -/
structure SameFrameSide (s t : State) : Prop where
  cfg : t.cfg = s.cfg
  int : t.int = s.int
  fc : t.fc = s.fc
  pidx : t.pidx = s.pidx
  fptr : t.fptr = s.fptr
  cd : t.cd = s.cd
  nv : t.nv = s.nv
  btn : t.btn = s.btn
  nsamp : t.nsamp = s.nsamp

theorem tick_sameFrame (s : State) : SameFrameSide s (tick s) :=
  ⟨tick_cfg s, tick_int s, tick_fc s, tick_pidx s, tick_fptr s, tick_cd s, tick_nv s, tick_btn s,
    tick_nsamp s⟩

theorem SameFrameSide.trans {s t u : State} (h : SameFrameSide s t) (h' : SameFrameSide t u) :
    SameFrameSide s u :=
  ⟨h'.cfg.trans h.cfg, h'.int.trans h.int, h'.fc.trans h.fc, h'.pidx.trans h.pidx,
    h'.fptr.trans h.fptr, h'.cd.trans h.cd, h'.nv.trans h.nv, h'.btn.trans h.btn,
    h'.nsamp.trans h.nsamp⟩

theorem ticks_sameFrame (n : Nat) (s : State) : SameFrameSide s (ticks n s) := by
  induction n with
  | zero => exact ⟨rfl, rfl, rfl, rfl, rfl, rfl, rfl, rfl, rfl⟩
  | succ n ih =>
    rw [ticks_succ]
    exact ih.trans (tick_sameFrame _)

/-- The boundary TICK with the frame pending publishes it and starts the next run (R162, R163). -/
theorem ticks_publish {s : State} (hne : s.cnt ≠ 0#8) (hfp : s.fp = true) :
    (ticks s.cnt.toNat s).tgt = s.int ∧ (ticks s.cnt.toNat s).fp = false ∧
      (ticks s.cnt.toNat s).cnt = s.cfg.limit ∧ (ticks s.cnt.toNat s).lat = s.cfg.seqLat := by
  obtain ⟨hlast, hone⟩ := ticks_to_boundary hne
  have hpos := byte_pos_iff.1 hne
  obtain ⟨-, -, hpending, -⟩ := ticks_before_boundary (n := s.cnt.toNat - 1) (s := s) (by omega)
  have hint := (ticks_sameFrame (s.cnt.toNat - 1) s).int
  rw [hlast]
  simp [tick_tgt, tick_fp, tick_cnt, tick_lat, hone, hpending, hfp, hint]

/-- Settles O26: with FP = 1 the steps up to the boundary are TICKs, and the last of them publishes. -/
theorem publishedAtTheNextBoundary : Obligations.PublishedAtTheNextBoundary := by
  intro s hw hfp hne
  refine ⟨fun k hk => ⟨_, steps_eq_ticks hw (.inl hfp) hk.le, ?before⟩,
    _, steps_eq_ticks hw (.inl hfp) le_rfl, ?boundary⟩
  case before =>
    obtain ⟨-, htgt, hpending, -⟩ := ticks_before_boundary (s := { s with lat := s.lat - k }) hk
    exact ⟨htgt, (ticks_sameFrame k _).int, hpending.trans hfp⟩
  case boundary => exact ticks_publish (s := { s with lat := s.lat - s.cnt.toNat }) hne hfp

/-- With targets 0 no TICK before the boundary, nor the boundary TICK, raises a pin (R91). -/
theorem ticks_dark {n : Nat} {s : State} (htgt : s.tgt = ⟨0#8, 0#8⟩) (hout : s.out = ⟨0#1, 0#1⟩)
    (hn : n ≤ s.cnt.toNat) : (ticks n s).out = ⟨0#1, 0#1⟩ := by
  cases n with
  | zero => exact hout
  | succ n =>
    obtain ⟨-, hsame, -⟩ := ticks_before_boundary (n := n) (s := s) (by omega)
    simp [ticks_succ, outBits, hsame, htgt, gtU]

/-- Settles O14: the boot state waits with its frame pending and dark targets. -/
theorem firstWindowIsDark : Obligations.FirstWindowIsDark := by
  intro s u h
  obtain ⟨hw, d, r, -, -, rfl⟩ := powerOn_eq_next.1 h
  generalize hu : (s.rebooted (bootIndex s)).loaded d r = u
  obtain ⟨hcfg, hcnt, hout, htgt, hfp, hlat⟩ : u.cfg = s.cfg ∧ u.cnt = s.cfg.limit ∧
      u.out = ⟨0#1, 0#1⟩ ∧ u.tgt = ⟨0#8, 0#8⟩ ∧ u.fp = true ∧ u.lat = 0 := by subst hu; simp
  obtain ⟨hne, -, -, -⟩ := configWf_params hw
  rw [← hcfg] at hw
  rw [← hcnt]
  rw [← hcnt] at hne
  refine ⟨fun k hk => ⟨ticks k u, steps_eq_ticks_of_pending hw hfp hlat hk.le,
    ticks_dark htgt hout hk.le, ?_⟩, ticks u.cnt.toNat u, steps_eq_ticks_of_pending hw hfp hlat le_rfl,
    ticks_dark htgt hout le_rfl, ?_⟩
  · exact (ticks_before_boundary hk).2.1.trans htgt
  · obtain ⟨hpublished, hcleared, -⟩ := ticks_publish hne hfp
    exact ⟨hpublished, hcleared⟩

/-! An ordinary TICK commutes with a run: they write different cells and read none of the other's (R34). -/

/-- The writes of an ordinary TICK: the timer, the pins and the count (R94). -/
def State.ticked (s : State) (out : Pair Level) (cnt : Byte) : State :=
  (s.timerReloaded.portWritten out).counted cnt

/-- `o` goes on to the same outcome whether the writes of the TICK come before it or after it. -/
def Commutes (o : State → Host.Outcome State Fault Refusal) : Prop :=
  ∀ (s : State) (out : Pair Level) (cnt : Byte),
    o (s.ticked out cnt) = andThen (o s) (fun t => .next (t.ticked out cnt))

theorem load_commutes (i : Nat) : Commutes (load i) := by
  intro s out cnt
  unfold load
  rw [show (s.ticked out cnt).cfg = s.cfg from rfl]
  cases readFrag s.cfg i <;> rfl

theorem changePattern_commutes (p : Byte) (i : Nat) : Commutes (changePattern p i) := by
  intro s out cnt
  have hload := load_commutes i (s.patternChosen p) out cnt
  unfold changePattern
  rw [show (s.ticked out cnt).patternChosen p = (s.patternChosen p).ticked out cnt from rfl, hload]
  cases load i (s.patternChosen p) <;> rfl

theorem selectNext_commutes : Commutes selectNext := by
  intro s out cnt
  unfold selectNext execEndlib execPat
  rw [show (s.ticked out cnt).cfg = s.cfg from rfl, show (s.ticked out cnt).pidx = s.pidx from rfl]
  cases readDir s.cfg (s.pidx + 1#8).toNat with
  | none => rfl
  | some e =>
    by_cases he : e = nullFrag s.cfg.fidxW
    · cases readDir s.cfg 0 with
      | none => simp [he]
      | some i => simpa [he] using changePattern_commutes 0#8 i s out cnt
    · simpa [he] using changePattern_commutes (s.pidx + 1#8) e s out cnt

theorem execEndMark_commutes (i0 a0 i1 a1 : Byte) : Commutes (execEndMark i0 a0 i1 a1) := by
  intro s out cnt
  unfold execEndMark
  rw [show (s.ticked out cnt).cfg = s.cfg from rfl, show (s.ticked out cnt).pidx = s.pidx from rfl]
  cases readDir s.cfg s.pidx.toNat with
  | none => rfl
  | some i => exact load_commutes i s out cnt

theorem advance_commutes : Commutes advance := by
  intro s out cnt
  unfold advance
  rw [show (s.ticked out cnt).cfg = s.cfg from rfl, show nextFrag (s.ticked out cnt) = nextFrag s from rfl]
  cases readFrag s.cfg (nextFrag s) with
  | none => rfl
  | some r =>
    by_cases hend : r.len = endLen
    · simpa [hend] using execEndMark_commutes _ _ _ _ s out cnt
    · simpa [hend] using load_commutes (nextFrag s) s out cnt

theorem rampStep_ticked (f : Record) (s : State) (out : Pair Level) (cnt : Byte) :
    rampStep f (s.ticked out cnt) = (rampStep f s).ticked out cnt := by
  unfold rampStep; split <;> rfl

theorem seqRun_commutes (f : Record) : Commutes (seqRun f) := by
  intro s out cnt
  cases hc : changeDue s with
  | true =>
    rw [seqRun_change hc, seqRun_change (s := s.ticked out cnt) hc, rampStep_ticked]
    exact selectNext_commutes (rampStep f s).sampleTaken out cnt
  | false =>
    rw [seqRun_quiet hc, seqRun_quiet (s := s.ticked out cnt) hc, rampStep_ticked]
    unfold countFrame
    have hadvance := advance_commutes (quietSample (rampStep f s)).fcDecremented out cnt
    rw [show (quietSample ((rampStep f s).ticked out cnt)).fc = (quietSample (rampStep f s)).fc from rfl]
    by_cases hend : (quietSample (rampStep f s)).fc - 1#8 = 0#8 ∧ f.len ≠ 0#8
    · rw [if_pos hend, if_pos hend]
      exact hadvance
    · rw [if_neg hend, if_neg hend]
      rfl

theorem seqStep_commutes : Commutes seqStep := by
  intro s out cnt
  cases hr : readFrag s.cfg s.fptr with
  | none =>
    rw [seqStep_refused hr, seqStep_refused (s := s.ticked out cnt) hr]
    rfl
  | some r =>
    rw [seqStep_of_some hr, seqStep_of_some (s := s.ticked out cnt) hr, seqRun_commutes]
    cases seqRun r s <;> rfl

/-- The run and TICKs before the boundary, in either order (R60, R164, R166). -/
theorem seqStep_ticks {n : Nat} {s : State} (hn : n < s.cnt.toNat) :
    seqStep (ticks n s) = andThen (seqStep s) (fun t => .next (ticks n t)) := by
  induction n with
  | zero =>
    rw [ticks]
    cases seqStep s <;> rfl
  | succ n ih =>
    obtain ⟨hcnt, htgt, -⟩ := ticks_before_boundary (n := n) (s := s) (by omega)
    have hne : (ticks n s).cnt ≠ 1#8 := byte_ne_one (by omega)
    rw [ticks_succ, tick_ordinary (atBoundary_eq_false hne)]
    refine (seqStep_commutes (ticks n s) _ _).trans ?_
    rw [ih (by omega), andThen_assoc]
    refine andThen_congr _ fun t ht => (andThen_next _ _).trans (congrArg _ ?_)
    have hsame := seqStep_same ht
    have htick := seqStep_same (s := ticks n s) (t := ticks n t) (by rw [ih (by omega), ht, andThen_next])
    rw [ticks_succ, tick_ordinary (atBoundary_eq_false (htick.cnt ▸ hne))]
    simp only [State.ticked, outBits, htick.cnt, htick.tgt]

/-- The steps up to and with the run in progress: its remaining TICKs, then the run (R163; log 6). -/
theorem steps_to_run {s : State} (hw : configWf s.cfg = true) (hfp : s.fp = false)
    (hlat : s.lat < s.cnt.toNat) : steps (s.lat + 1) s = seqStep (ticks s.lat { s with lat := 0 }) := by
  obtain ⟨-, -, hfp', hlat'⟩ := ticks_before_boundary (s := { s with lat := 0 }) hlat
  rw [steps_add, steps_eq_ticks hw (.inr le_rfl) hlat.le, Nat.sub_self, andThen_next, steps,
    step_run (by simpa using hw) (runDue_iff.2 ⟨hfp'.trans hfp, hlat'⟩)]
  cases seqStep (ticks s.lat { s with lat := 0 }) <;> rfl

/-- Settles O27: the run moves before the TICKs it follows, and after it the window's rest is TICKs. -/
theorem frameDoesNotDependOnLatency : Obligations.FrameDoesNotDependOnLatency := by
  intro s hw hfp hfull hlat
  rw [← hfull] at hlat
  have hwindow : s.cnt.toNat + 1 = s.lat + 1 + (s.cnt.toNat - s.lat) := by omega
  rw [← hfull, hwindow, steps_add, steps_to_run hw hfp hlat,
    seqStep_ticks (s := { s with lat := 0 }) hlat, andThen_assoc]
  refine andThen_congr _ fun t ht => ?_
  obtain ⟨hcfg, hcnt, -, -, htlat, -⟩ := seqStep_same ht
  obtain ⟨hcnt', -, hfp', hlat'⟩ := ticks_before_boundary (n := s.lat) (s := t) (by rwa [hcnt])
  rw [andThen_next, steps_eq_ticks_of_pending (by rwa [ticks_cfg, hcfg]) (hfp'.trans (seqStep_fp ht))
    (hlat'.trans htlat) (by rw [hcnt', hcnt]), ← ticks_add, Nat.add_sub_cancel' hlat.le]

/-- Settles O28: the TICKs before the run leave its position sound, so it completes. -/
theorem runCompletesBeforeTheBoundary : Obligations.RunCompletesBeforeTheBoundary := by
  intro s hinv hw hfp
  have hlat := hinv.inTime hfp
  obtain ⟨hcnt, htgt, -⟩ := ticks_before_boundary (s := { s with lat := 0 }) hlat
  have hframe := ticks_sameFrame s.lat { s with lat := 0 }
  obtain ⟨t, ht, -⟩ := seqStep_completes (s := ticks s.lat { s with lat := 0 }) (by simpa using hw)
    (positionOk_congr hframe.cfg hframe.pidx hframe.fptr (hinv.position hw))
    (frameCountOk_congr hframe.cfg hframe.fptr hframe.fc (hinv.frameCount hw))
  have hsame := seqStep_same ht
  have hleft : t.cnt.toNat = s.cnt.toNat - s.lat := (congrArg _ hsame.cnt).trans hcnt
  exact ⟨t, (steps_to_run hw hfp hlat).trans ht, seqStep_fp ht, by omega, by omega,
    hsame.tgt.trans htgt⟩

end Sys2Proof.Machine
end

section
/-! Many runs without a pattern change (R116, R120 to R125, R146), and the proofs of O47, O49, O50, O51, O52
and O54. -/

namespace Sys2Proof.Machine

/-- What `k` runs without a pattern change leave: `k` samples and as much cooldown gone by (R142, R148). -/
structure QuietRuns (k : Nat) (s t : State) : Prop where
  cfg : t.cfg = s.cfg
  pidx : t.pidx = s.pidx
  nv : t.nv = s.nv
  cd : t.cd.toNat = s.cd.toNat - k
  button : ∀ j, buttonAt t j = buttonAt s (k + j)

theorem QuietRuns.zero (s : State) : QuietRuns 0 s s :=
  ⟨rfl, rfl, rfl, rfl, fun j => by rw [Nat.zero_add]⟩

theorem QuietRuns.sameFrame {k : Nat} {s t u : State} (h : QuietRuns k s t) (hu : SameFrameSide t u) :
    QuietRuns k s u :=
  ⟨hu.cfg.trans h.cfg, hu.pidx.trans h.pidx, hu.nv.trans h.nv, by rw [hu.cd, h.cd],
    fun j => by rw [← h.button j, buttonAt, hu.btn, hu.nsamp, buttonAt]⟩

/-- The samples and the cooldown of `k + m` quiet runs are quiet for the last `m` of them. -/
theorem QuietRuns.quiet_rest {k m : Nat} {s t : State} (h : QuietRuns k s t) (hq : quiet (k + m) s) :
    quiet m t := by
  intro j hj
  rw [h.cd, h.button]
  exact (hq (k + j) (by omega)).imp (by omega) id

theorem QuietRuns.not_changeDue {k : Nat} {s t : State} (h : QuietRuns k s t) (hq : quiet (k + 1) s) :
    changeDue t = false := changeDue_of_quiet (k := 0) (h.quiet_rest hq)

/-- One quiet run more. -/
theorem QuietRuns.next {k : Nat} {s t u : State} (h : QuietRuns k s t) (hu : seqStep t = .next u)
    (hq : changeDue t = false) : QuietRuns (k + 1) s u := by
  have hframe := seqStep_quietFrame hu hq
  refine ⟨(seqStep_same hu).cfg.trans h.cfg, hframe.pidx.trans h.pidx, hframe.nv.trans h.nv, ?_,
    fun j => ?_⟩
  · rw [hframe.cd, quietSample_cd_toNat, h.cd, Nat.sub_sub]
  · rw [buttonAt_next hframe.btn hframe.nsamp, h.button, Nat.add_assoc, Nat.add_comm 1]

/-- The last of `k + 1` runs, for inductions over the number of runs. -/
theorem runs_succ (k : Nat) (s : State) : runs (k + 1) s = andThen (runs k s) seqStep := by
  rw [runs_add]
  refine andThen_congr _ fun t _ => ?_
  rw [runs]
  cases seqStep t <;> rfl

theorem runs_quiet {k : Nat} {s t : State} (h : runs k s = .next t) (hq : quiet k s) :
    QuietRuns k s t := by
  induction k generalizing t with
  | zero =>
    obtain rfl := Host.Outcome.next.inj h
    exact QuietRuns.zero s
  | succ k ih =>
    rw [runs_succ, andThen_eq_next] at h
    obtain ⟨u, hu, ht⟩ := h
    have hrest := ih hu fun j hj => hq j (by omega)
    exact hrest.next ht (hrest.not_changeDue hq)

/-- From a sound position any number of runs completes, whatever the button does (R122). -/
theorem runs_complete (k : Nat) {s : State} (hw : configWf s.cfg = true) (hpos : positionOk s)
    (hcount : frameCountOk s) : ∃ t, runs k s = .next t := by
  induction k generalizing s with
  | zero => exact ⟨s, rfl⟩
  | succ k ih =>
    obtain ⟨u, hu, hupos, hucount⟩ := seqStep_completes hw hpos hcount
    obtain ⟨t, ht⟩ := ih ((seqStep_same hu).cfg ▸ hw) hupos hucount
    exact ⟨t, by rw [runs, hu, andThen_next, ht]⟩

/-- Settles O47: the cooldown makes the next COOLDOWN runs quiet, whatever the button does. -/
theorem heldButtonActsOncePerWindow : Obligations.HeldButtonActsOncePerWindow := by
  intro s k hw hpos hcount hcd hk
  obtain ⟨t, ht⟩ := runs_complete k hw hpos hcount
  have hquiet := runs_quiet ht fun j hj => .inl (by rw [hcd]; omega)
  have hleft : t.cd.toNat = s.cfg.cooldown.toNat - k := by rw [hquiet.cd, hcd]
  refine ⟨t, ht, hquiet.pidx, hquiet.nv, hleft, fun hlt => ?cooling, fun heq => ?finished⟩
  case cooling => exact changeDue_of_cd_ne_zero (byte_pos_iff.2 (by omega))
  case finished =>
    have hzero : t.cd = 0#8 := BitVec.eq_of_toNat_eq (by simp [hleft, heq])
    simp [changeDue, hzero, hquiet.button]

/-! HOLD. -/

/-- A quiet run of a HOLD record only counts (R116, R120). -/
theorem seqStep_hold {s : State} {r : Record} (hr : readFrag s.cfg s.fptr = some r) (hlen : r.len = 0#8)
    (hq : changeDue s = false) : seqStep s = .next (quietSample s).fcDecremented.setPending := by
  rw [seqStep_of_some hr, seqRun_counts hq (.inr hlen), rampStep_of_zero hlen, andThen_next]

/-- Settles O52, by induction over the runs. -/
theorem holdLastsForEver : Obligations.HoldLastsForEver := by
  intro s r k hr hlen hq
  induction k with
  | zero => exact ⟨s, rfl, rfl, rfl, rfl, (BitVec.sub_zero _).symm⟩
  | succ k ih =>
    obtain ⟨t, ht, hint, hfptr, hpidx, hfc⟩ := ih fun j hj => hq j (by omega)
    have hquiet := runs_quiet ht fun j hj => hq j (by omega)
    refine ⟨(quietSample t).fcDecremented.setPending, ?_, hint, hfptr, hpidx, ?_⟩
    · rw [runs_succ, ht, andThen_next,
        seqStep_hold (by rw [hquiet.cfg, hfptr, hr]) hlen (hquiet.not_changeDue hq)]
    · simp only [State.setPending_fc, State.fcDecremented_fc, quietSample_fc, hfc]
      rw [BitVec.ofNat_add, sub_sub]

/-! RAMP. -/

/-- `t` is `s` after `k` quiet runs of the RAMP record `r`, which is still current (R119, R123). -/
structure RampProgress (r : Record) (k : Nat) (s t : State) : Prop extends QuietRuns k s t where
  fptr : t.fptr = s.fptr
  fc : t.fc.toNat = s.fc.toNat - k
  int : ∀ c, (t.int.get c).toNat = ((s.int.get c).toNat + k * (r.inc.get c).toNat) % 256

theorem RampProgress.zero (r : Record) (s : State) : RampProgress r 0 s s where
  toQuietRuns := QuietRuns.zero s
  fptr := rfl
  fc := rfl
  int c := by simp [Nat.mod_eq_of_lt (BitVec.isLt _)]

theorem RampProgress.sameFrame {r : Record} {k : Nat} {s t u : State} (h : RampProgress r k s t)
    (hu : SameFrameSide t u) : RampProgress r k s u where
  toQuietRuns := h.toQuietRuns.sameFrame hu
  fptr := hu.fptr.trans h.fptr
  fc := hu.fc ▸ h.fc
  int c := hu.int ▸ h.int c

theorem addPair_get (a b : Pair Byte) (c : Channel) : (addPair a b).get c = a.get c + b.get c := by
  cases c <;> rfl

/-- One quiet run more, while FC does not reach 0 (R113, R115). -/
theorem RampProgress.next {r : Record} {k : Nat} {s t : State} (h : RampProgress r k s t)
    (hr : readFrag s.cfg s.fptr = some r) (hlen : r.len ≠ 0#8) (hk : k + 1 < s.fc.toNat)
    (hq : quiet (k + 1) s) : ∃ u, seqStep t = .next u ∧ RampProgress r (k + 1) s u := by
  have hquiet := h.toQuietRuns.not_changeDue hq
  have hfc := h.fc
  have hstep : seqStep t = .next (quietSample (t.rampAdded r.inc)).fcDecremented.setPending := by
    rw [seqStep_of_some (by rw [h.cfg, h.fptr, hr]),
      seqRun_counts hquiet (.inl (byte_ne_one (by omega))), rampStep_of_ne_zero hlen, andThen_next]
  refine ⟨_, hstep, h.toQuietRuns.next hstep hquiet, h.fptr, ?_, fun c => ?_⟩
  · simp only [State.setPending_fc, State.fcDecremented_fc, quietSample_fc, State.rampAdded_fc]
    rw [byte_toNat_sub_one (by omega), hfc, Nat.sub_sub]
  · simp only [State.setPending_int, State.fcDecremented_int, quietSample_int, State.rampAdded_int]
    rw [addPair_get, BitVec.toNat_add, h.int c, Nat.mod_add_mod, Nat.add_assoc, Nat.succ_mul]

/-- `k` quiet runs of a RAMP with more than `k` frames to go (R123). -/
theorem runs_ramp {r : Record} {k : Nat} {s : State} (hr : readFrag s.cfg s.fptr = some r)
    (hlen : r.len ≠ 0#8) (hk : k < s.fc.toNat) (hq : quiet k s) :
    ∃ t, runs k s = .next t ∧ RampProgress r k s t := by
  induction k with
  | zero => exact ⟨s, rfl, RampProgress.zero r s⟩
  | succ k ih =>
    obtain ⟨t, ht, hprogress⟩ := ih (by omega) fun j hj => hq j (by omega)
    obtain ⟨u, hu, hnext⟩ := hprogress.next hr hlen hk hq
    exact ⟨u, by rw [runs_succ, ht, andThen_next, hu], hnext⟩

/-- Settles O49: `k` quiet runs from the loaded `init` and `len`. -/
theorem linearFormula : Obligations.LinearFormula := by
  rintro s r k ⟨hr, hramp, hfc, hint⟩ hk hq
  obtain ⟨t, ht, hprogress⟩ := runs_ramp hr hramp.1 (by rwa [hfc]) hq
  exact ⟨t, ht, fun c => hint ▸ hprogress.int c, hfc ▸ hprogress.fc, hprogress.fptr, hprogress.pidx⟩

/-- The last run of a RAMP record loads what step 6 finds (R117, R118). -/
theorem seqStep_ramp_ends {t : State} {r q r' : Record} {d : Nat} (hr : readFrag t.cfg t.fptr = some r)
    (hlen : r.len ≠ 0#8) (hquiet : changeDue t = false) (hfc : t.fc = 1#8)
    (hq : readFrag t.cfg (nextFrag t) = some q)
    (hd : (q.len ≠ endLen ∧ d = nextFrag t) ∨ (q.len = endLen ∧ readDir t.cfg t.pidx.toNat = some d))
    (hr' : readFrag t.cfg d = some r') :
    ∃ u, seqStep t = .next u ∧ u.fptr = d ∧ u.fc = r'.len ∧ u.int = r'.init := by
  have hadvance := advance_loads (s := (quietSample (t.rampAdded r.inc)).fcDecremented) hq hd hr'
  refine ⟨((quietSample (t.rampAdded r.inc)).fcDecremented.loaded d r').setPending, ?_, rfl, rfl, rfl⟩
  rw [seqStep_of_some hr, seqRun_ends hquiet hfc hlen, rampStep_of_ne_zero hlen, hadvance, andThen_next]

/-- A RAMP just loaded ends after `len` quiet runs: the last of them loads what step 6 finds (R117, R124). -/
theorem runs_whole_ramp {s : State} {r q r' : Record} {d : Nat} (hload : justLoaded s r)
    (hquiet : quiet r.len.toNat s) (hq : readFrag s.cfg (nextFrag s) = some q)
    (hd : (q.len ≠ endLen ∧ d = nextFrag s) ∨ (q.len = endLen ∧ readDir s.cfg s.pidx.toNat = some d))
    (hr' : readFrag s.cfg d = some r') :
    ∃ t, runs r.len.toNat s = .next t ∧ t.fptr = d ∧ t.fc = r'.len ∧ t.int = r'.init := by
  obtain ⟨hr, hramp, hfc, -⟩ := hload
  have hpos := byte_pos_iff.1 hramp.1
  obtain ⟨k, hk⟩ : ∃ k, r.len.toNat = k + 1 := ⟨r.len.toNat - 1, by omega⟩
  rw [hk] at hquiet ⊢
  obtain ⟨t, ht, hprogress⟩ := runs_ramp hr hramp.1 (k := k) (by rw [hfc]; omega)
    fun j hj => hquiet j (by omega)
  have hlast : t.fc = 1#8 := byte_eq_one_iff.2 (by rw [hprogress.fc, hfc]; omega)
  have hcfg := hprogress.cfg
  have hnext : nextFrag t = nextFrag s := by rw [nextFrag, nextFrag, hcfg, hprogress.fptr]
  obtain ⟨u, hu, hloaded⟩ := seqStep_ramp_ends (t := t) (by rw [hcfg, hprogress.fptr, hr]) hramp.1
    (hprogress.toQuietRuns.not_changeDue hquiet) hlast (by rw [hcfg, hnext, hq])
    (by rwa [hcfg, hnext, hprogress.pidx]) (by rw [hcfg, hr'])
  exact ⟨u, by rw [runs_succ, ht, andThen_next, hu], hloaded⟩

/-- Settles O51: the last run loads the successor, or after END the pattern's first fragment. -/
theorem rampLastsItsLength : Obligations.RampLastsItsLength := by
  intro s r q hload hquiet hq
  exact ⟨fun hreal => runs_whole_ramp hload hquiet hq (.inl ⟨hreal, rfl⟩) hq,
    fun hend d r' hd hr' => runs_whole_ramp hload hquiet hq (.inr ⟨hend, hd⟩) hr'⟩

/-- From any RAMP of a pattern, just loaded, the frames of the `m` records up to END lead back to the
pattern's first fragment (R125). -/
theorem runs_to_pattern_start {s : State} {d m : Nat} {r q r' : Record} (hload : justLoaded s r)
    (hm : 1 ≤ m) (hfit : s.fptr + m < 2 ^ s.cfg.fidxW)
    (hramps : ∀ j, j < m → ∃ x, readFrag s.cfg (s.fptr + j) = some x ∧ isRamp x)
    (hq : readFrag s.cfg (s.fptr + m) = some q) (hend : q.len = endLen)
    (hd : readDir s.cfg s.pidx.toNat = some d) (hr' : readFrag s.cfg d = some r')
    (hquiet : quiet (framesOf s.cfg s.fptr m) s) :
    ∃ t, runs (framesOf s.cfg s.fptr m) s = .next t ∧
      t.fptr = d ∧ t.fc = r'.len ∧ t.int = r'.init := by
  induction m, hm using Nat.le_induction generalizing s r with
  | base =>
    have hnext : nextFrag s = s.fptr + 1 := Nat.mod_eq_of_lt hfit
    have hframes : framesOf s.cfg s.fptr 1 = r.len.toNat := by simp [framesOf, hload.1]
    rw [hframes] at hquiet ⊢
    exact runs_whole_ramp hload hquiet (hnext ▸ hq) (.inr ⟨hend, hd⟩) hr'
  | succ m hm ih =>
    have hnext : nextFrag s = s.fptr + 1 := Nat.mod_eq_of_lt (by omega)
    have hframes : framesOf s.cfg s.fptr (m + 1) = r.len.toNat + framesOf s.cfg (s.fptr + 1) m := by
      simp [framesOf, hload.1]
    rw [hframes] at hquiet ⊢
    obtain ⟨x, hx, hxramp⟩ := hramps 1 (by omega)
    have hfirst : quiet r.len.toNat s := fun j hj => hquiet j (by omega)
    obtain ⟨u, hu, hfptr, hfc, hint⟩ := runs_whole_ramp hload hfirst (hnext ▸ hx)
      (.inl ⟨hxramp.2, rfl⟩) (hnext ▸ hx)
    have hrest := runs_quiet hu hfirst
    rw [hnext] at hfptr
    obtain ⟨t, ht, hend'⟩ := ih (s := u) (r := x)
      ⟨by rw [hrest.cfg, hfptr, hx], hxramp, hfc, hint⟩
      (by rw [hrest.cfg, hfptr]; omega)
      (fun j hj => by
        rw [hrest.cfg, hfptr, Nat.add_assoc]
        exact hramps (1 + j) (by omega))
      (by rw [hrest.cfg, hfptr, Nat.add_assoc, Nat.add_comm 1, hq])
      (by rw [hrest.cfg, hrest.pidx, hd]) (by rw [hrest.cfg, hr'])
      (by rw [hrest.cfg, hfptr]; exact hrest.quiet_rest hquiet)
    rw [hrest.cfg, hfptr] at ht
    exact ⟨t, by rw [runs_add, hu, andThen_next, ht], hend'⟩

/-- Settles O54: from the pattern's first fragment, all `m` records and back. -/
theorem patternRepeatsWithItsPeriod : Obligations.PatternRepeatsWithItsPeriod := by
  rintro s d m r q hd rfl hload hm hfit hramps hq hend hquiet
  obtain ⟨t, ht, hfptr, hfc, hint⟩ :=
    runs_to_pattern_start hload hm hfit hramps hq hend hd hload.1 hquiet
  exact ⟨t, ht, hfptr, hfc, hint, (runs_quiet ht hquiet).pidx⟩

/-! The windows of a RAMP. -/

/-- A window has just been opened with the targets INT, `s` being the RAMP's state `k` runs before. -/
structure WindowOpen (r : Record) (k : Nat) (s t : State) : Prop where
  progress : RampProgress r k s t
  cnt : t.cnt = s.cfg.limit
  fp : t.fp = false
  lat : t.lat = s.cfg.seqLat
  tgt : t.tgt = t.int

/-- The boundary that publishes opens the window. -/
theorem windowOpen_of_publish {r : Record} {k : Nat} {s u : State} (h : RampProgress r k s u)
    (hne : u.cnt ≠ 0#8) (hfp : u.fp = true) : WindowOpen r k s (ticks u.cnt.toNat u) := by
  obtain ⟨htgt, hcleared, hcnt, hlat⟩ := ticks_publish hne hfp
  have hframe := ticks_sameFrame u.cnt.toNat u
  rw [h.cfg] at hcnt hlat
  exact ⟨h.sameFrame hframe, hcnt, hcleared, hlat, htgt.trans hframe.int.symm⟩

/-- One window and its run lead to the next window, whatever SEQ_LAT is (R166). -/
theorem WindowOpen.next {r : Record} {k : Nat} {s t : State} (h : WindowOpen r k s t)
    (hw : configWf s.cfg = true) (hr : readFrag s.cfg s.fptr = some r) (hlen : r.len ≠ 0#8)
    (hk : k + 1 < s.fc.toNat) (hq : quiet (k + 1) s) :
    ∃ u, steps (s.cfg.limit.toNat + 1) t = .next u ∧ WindowOpen r (k + 1) s u := by
  obtain ⟨hprogress, hcnt, hfp, hlat, -⟩ := h
  have hcfg := hprogress.cfg
  obtain ⟨hne, -, -, hseqLat⟩ := configWf_params hw
  have hstart : RampProgress r k s { t with lat := 0 } :=
    hprogress.sameFrame ⟨rfl, rfl, rfl, rfl, rfl, rfl, rfl, rfl, rfl⟩
  obtain ⟨u, hu, hprogress'⟩ := hstart.next hr hlen hk hq
  have hcnt' : u.cnt = s.cfg.limit := (seqStep_same hu).cnt.trans hcnt
  have hopen := windowOpen_of_publish hprogress' (by rwa [hcnt']) (seqStep_fp hu)
  rw [hcnt'] at hopen
  refine ⟨_, ?_, hopen⟩
  have hwindow := frameDoesNotDependOnLatency t (hcfg ▸ hw) hfp (hcfg ▸ hcnt)
    (by rwa [hlat, hcfg])
  rw [hu, andThen_next, hcfg] at hwindow
  exact hwindow

/-- The windows of a RAMP whose first pair is pending, by induction over them. -/
theorem steps_to_window {s : State} {r : Record} {k : Nat} (hw : configWf s.cfg = true)
    (hfp : s.fp = true) (hlat : s.lat = 0) (hne : s.cnt ≠ 0#8)
    (hr : readFrag s.cfg s.fptr = some r) (hlen : r.len ≠ 0#8) (hk : k < s.fc.toNat)
    (hq : quiet k s) :
    ∃ t, steps (s.cnt.toNat + k * (s.cfg.limit.toNat + 1)) s = .next t ∧ WindowOpen r k s t := by
  induction k with
  | zero =>
    have hfirst := steps_eq_ticks_of_pending hw hfp hlat le_rfl
    exact ⟨_, by rwa [Nat.zero_mul], windowOpen_of_publish (RampProgress.zero r s) hne hfp⟩
  | succ k ih =>
    obtain ⟨t, ht, hopen⟩ := ih (by omega) fun j hj => hq j (by omega)
    obtain ⟨u, hu, hopen'⟩ := hopen.next hw hr hlen hk hq
    exact ⟨u, by rw [Nat.succ_mul, ← Nat.add_assoc, steps_add, ht, andThen_next, hu], hopen'⟩

/-- Settles O50: the window opens with the targets INT, and INT is the RAMP's linear formula. -/
theorem windowsShowTheRamp : Obligations.WindowsShowTheRamp := by
  rintro s r k hw hfp hlat hne ⟨hr, hramp, hfc, hint⟩ hk hq
  obtain ⟨t, ht, hprogress, hcnt, hcleared, -, htgt⟩ :=
    steps_to_window hw hfp hlat hne hr hramp.1 (by rwa [hfc]) hq
  exact ⟨t, ht, hcnt, hcleared, fun c => by rw [htgt, hprogress.int c, hint]⟩

end Sys2Proof.Machine
end
